-- ==== Sys2Proof/Word.lean ====
section
/-! DEFINITION. The bit-vector types of the block (00_scope.md R7, 10_state.md R20, R27, 30_encoding.md R80). -/

namespace Sys2Proof

/-- An 8-bit frame byte (R7). -/
abbrev Byte := BitVec 8

/-- A 16-bit pulse duration in microseconds (R7). -/
abbrev Duration := BitVec 16

/-- A clock value in milliseconds, `TIME_W = 32` bits (R6, R27, R243; log 8). -/
abbrev Time := BitVec 32

/-- The operand field `cmd[31:0]` of a command word (R80). -/
abbrev Arg := BitVec 32

/-- A 36-bit command word (R80). -/
abbrev Cmd := BitVec 36

/-- The 7-bit register `tempX2` in half-degree units (R20, R22). -/
abbrev Temp := BitVec 7

/-- The 50-bit status record of `GETSTATUS` (R88). -/
abbrev StatusWord := BitVec 50

end Sys2Proof
end

