-- ==== Sys2Proof/Machine/Arith.lean ====
section
/-! DEFINITION. The helper functions of 00_scope.md R8 and the integer laws of 40_ac_state_store.md R129 to R134. -/

namespace Sys2Proof.Machine

/-- `sum8(L)`, the modular-256 sum (R8, R130). -/
def sum8 (bytes : List Byte) : Byte :=
  bytes.foldr (fun b acc => b + acc) 0

/-- `clamp(v, lo, hi)` on mathematical integers (R8, R129). -/
def clamp (v lo hi : Int) : Int :=
  if v < lo then lo else if v > hi then hi else v

/-- `sext_32(arg)`: two's complement reading (R8, R85). -/
def sext32 (v : BitVec 32) : Int := v.toInt

/-- `sdiff(a, b)`: the signed difference of two clock values (R8, R132). -/
def signedDiff (a b : Time) : Int := sext32 (a - b)

end Sys2Proof.Machine
end

