-- ==== Sys2Proof/Syntax.lean ====
section
/-! DEFINITION. The eight commands with their operand tokens (30_encoding.md R80 to R89). -/

namespace Sys2Proof

/-- The `SETMODE` operand (R82); any other `arg` is kept as it came. -/
inductive ModeToken where
  | heat
  | cool
  | unrecognised (arg : Arg)
deriving DecidableEq, Repr

/-- The `STEPTEMP` operand (R83). -/
inductive DirectionToken where
  | negative
  | positive
  | unrecognised (arg : Arg)
deriving DecidableEq, Repr

/-- The `SETFAN` selector (R84). -/
inductive FanToken where
  | auto
  | quiet
  | lv1
  | lv2
  | lv3
  | lv4
  | lv5
  | unrecognised (arg : Arg)
deriving DecidableEq, Repr

/-- The `PLAYLIGHT` operand (R86). -/
inductive SceneToken where
  | on
  | night
  | off
  | unrecognised (arg : Arg)
deriving DecidableEq, Repr

/-- The eight commands (R81). A command without operand keeps the `arg` it ignores (R89); `minutes` is the
signed reading of `arg` (R85). -/
inductive Instr where
  | setmode (token : ModeToken)
  | steptemp (token : DirectionToken)
  | setfan (token : FanToken)
  | poweroff (arg : Arg)
  | armtimer (minutes : Int)
  | canceltimer (arg : Arg)
  | getstatus (arg : Arg)
  | playlight (token : SceneToken)
deriving DecidableEq, Repr

/-- Why a command word is no command: its `op` is reserved (R90). -/
inductive DecodeError where
  | reservedOpcode (op : BitVec 4)
deriving DecidableEq, Repr

end Sys2Proof
end

