-- ==== Sys2Proof/Decode.lean ====
section
/-! DEFINITION. Decoding and encoding of the 36-bit command word, and the textual syntax (30_encoding.md R80 to R92, R102). -/

namespace Sys2Proof

/-- `op = cmd[35:32]` (R80). -/
def opField (cmd : Cmd) : BitVec 4 := cmd.extractLsb' 32 4

/-- `arg = cmd[31:0]` (R80). -/
def argField (cmd : Cmd) : Arg := cmd.extractLsb' 0 32

/-- The `SETMODE` operand table (R82). -/
def decodeMode (arg : Arg) : ModeToken :=
  if arg = 0#32 then .heat else if arg = 1#32 then .cool else .unrecognised arg

/-- The `STEPTEMP` operand table (R83). -/
def decodeDirection (arg : Arg) : DirectionToken :=
  if arg = 0#32 then .negative else if arg = 1#32 then .positive else .unrecognised arg

/-- The `SETFAN` selector table (R84). -/
def decodeFan (arg : Arg) : FanToken :=
  if arg = 0#32 then .auto else if arg = 1#32 then .quiet else if arg = 2#32 then .lv1 else if arg = 3#32 then .lv2
  else if arg = 4#32 then .lv3 else if arg = 5#32 then .lv4 else if arg = 6#32 then .lv5 else .unrecognised arg

/-- The `PLAYLIGHT` operand table (R86). -/
def decodeScene (arg : Arg) : SceneToken :=
  if arg = 0#32 then .on else if arg = 1#32 then .night else if arg = 2#32 then .off else .unrecognised arg

/-- The opcode map (R81): total on every word, a reserved `op` is rejected by name (R90). -/
def decode (cmd : Cmd) : Except DecodeError Instr :=
  match (opField cmd).toNat with
  | 0x1 => .ok (.setmode (decodeMode (argField cmd)))
  | 0x2 => .ok (.steptemp (decodeDirection (argField cmd)))
  | 0x3 => .ok (.setfan (decodeFan (argField cmd)))
  | 0x4 => .ok (.poweroff (argField cmd))
  | 0x5 => .ok (.armtimer (Machine.sext32 (argField cmd)))
  | 0x6 => .ok (.canceltimer (argField cmd))
  | 0x7 => .ok (.getstatus (argField cmd))
  | 0x8 => .ok (.playlight (decodeScene (argField cmd)))
  | _ => .error (.reservedOpcode (opField cmd))

/-- The word of bits `w`, numbered as the opcode table numbers them, of which the low `nbits` are given and the
others are 0; none where a bit above bit 35 is set, since a command word has 36 bits (log 12). -/
def tableWord (nbits w : Nat) : Option Cmd :=
  if w % 2 ^ nbits < 2 ^ 36 then some (BitVec.ofNat 36 (w % 2 ^ nbits)) else none

/-- What the decoder reads from the word of bits `w` (the host's question). -/
def decodeTableWord (nbits w : Nat) : Option Instr :=
  match tableWord nbits w with
  | none => none
  | some cmd =>
    match decode cmd with
    | .ok i => some i
    | .error _ => none

/-- The `arg` of a mode token (R82). -/
def encodeMode : ModeToken → Arg
  | .heat => 0
  | .cool => 1
  | .unrecognised arg => arg

/-- The `arg` of a direction token (R83). -/
def encodeDirection : DirectionToken → Arg
  | .negative => 0
  | .positive => 1
  | .unrecognised arg => arg

/-- The `arg` of a fan selector (R84). -/
def encodeFan : FanToken → Arg
  | .auto => 0
  | .quiet => 1
  | .lv1 => 2
  | .lv2 => 3
  | .lv3 => 4
  | .lv4 => 5
  | .lv5 => 6
  | .unrecognised arg => arg

/-- The `arg` of a scene token (R86). -/
def encodeScene : SceneToken → Arg
  | .on => 0
  | .night => 1
  | .off => 2
  | .unrecognised arg => arg

/-- The operation code of a command (R81). -/
def opcodeOf : Instr → BitVec 4
  | .setmode _ => 0x1
  | .steptemp _ => 0x2
  | .setfan _ => 0x3
  | .poweroff _ => 0x4
  | .armtimer _ => 0x5
  | .canceltimer _ => 0x6
  | .getstatus _ => 0x7
  | .playlight _ => 0x8

/-- The operand field of a command; `ArmTimer(n)` carries `n mod 2^32` (R102). -/
def operandOf : Instr → Arg
  | .setmode t => encodeMode t
  | .steptemp t => encodeDirection t
  | .setfan t => encodeFan t
  | .poweroff arg => arg
  | .armtimer minutes => BitVec.ofInt 32 minutes
  | .canceltimer arg => arg
  | .getstatus arg => arg
  | .playlight t => encodeScene t

/-- The 36-bit word of a command (R80). -/
def encode (i : Instr) : Cmd := opcodeOf i ++ operandOf i

/-- The line of a test program that assembles to a command (R102), for the commands the table gives a text. -/
def commandText : Instr → Option String
  | .setmode .heat => some "SetMode(heat)"
  | .setmode .cool => some "SetMode(cool)"
  | .setmode (.unrecognised _) => none
  | .steptemp .negative => some "StepTemp(negative)"
  | .steptemp .positive => some "StepTemp(positive)"
  | .steptemp (.unrecognised _) => none
  | .setfan .auto => some "SetFan(auto)"
  | .setfan .quiet => some "SetFan(quiet)"
  | .setfan .lv1 => some "SetFan(1)"
  | .setfan .lv2 => some "SetFan(2)"
  | .setfan .lv3 => some "SetFan(3)"
  | .setfan .lv4 => some "SetFan(4)"
  | .setfan .lv5 => some "SetFan(5)"
  | .setfan (.unrecognised _) => none
  | .poweroff arg => if arg = 0 then some "PowerOff()" else none
  | .armtimer minutes => some ("ArmTimer(" ++ toString minutes ++ ")")
  | .canceltimer arg => if arg = 0 then some "CancelTimer()" else none
  | .getstatus arg => if arg = 0 then some "GetACStatus()" else none
  | .playlight .on => some "PlayLightScene(on)"
  | .playlight .night => some "PlayLightScene(night)"
  | .playlight .off => some "PlayLightScene(off)"
  | .playlight (.unrecognised _) => none

end Sys2Proof
end

