-- ==== Sys2Proof/Config.lean ====
section
/-! DEFINITION. The configuration record CFG (00_scope.md R6), its well-formedness, and the free values of the model. -/

namespace Sys2Proof

/-- The two values of register `mode` (10_state.md R23). -/
inductive Mode where
  | heat
  | cool
deriving DecidableEq, Repr, Inhabited

/-- The three light scenes (10_state.md R34). -/
inductive Scene where
  | on
  | night
  | off
deriving DecidableEq, Repr, Inhabited

/-- The three frame slots of one scene, an empty list for an empty slot (43 R191). -/
structure SceneFrames where
  slot0 : List Duration
  slot1 : List Duration
  slot2 : List Duration
deriving DecidableEq, Repr, Inhabited

/-- The slots in slot order (43 R194). -/
def SceneFrames.slots (f : SceneFrames) : List (List Duration) := [f.slot0, f.slot1, f.slot2]

/-- The configuration record `CFG` (R6). -/
structure Cfg where
  tplCool : List Byte
  tplHeat : List Byte
  tplOff : List Byte
  fanAuto : Byte
  fanQuiet : Byte
  fanLv1 : Byte
  fanLv2 : Byte
  fanLv3 : Byte
  fanLv4 : Byte
  fanLv5 : Byte
  lgtOn : SceneFrames
  lgtNight : SceneFrames
  lgtOff : SceneFrames
  plsCap : Nat
  resetMode : Mode
  resetTempX2 : Nat
deriving DecidableEq, Repr, Inhabited

/-- The seven fan codes in selector order (R6, R84). -/
def Cfg.fanCodes (c : Cfg) : List Byte :=
  [c.fanAuto, c.fanQuiet, c.fanLv1, c.fanLv2, c.fanLv3, c.fanLv4, c.fanLv5]

/-- `LGT[scene]` (R6, R34). -/
def Cfg.scene (c : Cfg) : Scene → SceneFrames
  | .on => c.lgtOn
  | .night => c.lgtNight
  | .off => c.lgtOff

/-- The OFF checksum constraint (R6, 41 R157). -/
abbrev Cfg.OffChecksums (c : Cfg) : Prop :=
  c.tplOff[19]? = some (Machine.sum8 (c.tplOff.take 19)) ∧
  c.tplOff[38]? = some (Machine.sum8 ((c.tplOff.drop 20).take 18))

/-- The light table shape (R6, 43 R191). -/
abbrev Cfg.LightShape (c : Cfg) : Prop :=
  c.lgtOn.slot0 ≠ [] ∧ c.lgtOn.slot1 ≠ [] ∧ c.lgtOn.slot2 ≠ [] ∧
  c.lgtNight.slot0 ≠ [] ∧ c.lgtNight.slot1 ≠ [] ∧ c.lgtNight.slot2 = [] ∧
  c.lgtOff.slot0 ≠ [] ∧ c.lgtOff.slot1 ≠ [] ∧ c.lgtOff.slot2 = []

/-- The fan code constraint (R6): `FAN_AUTO` is `0xA0` on this hardware (D11), all seven are nonzero and distinct. -/
abbrev Cfg.FanShape (c : Cfg) : Prop :=
  c.fanAuto = 0xA0#8 ∧ (0#8) ∉ c.fanCodes ∧ c.fanCodes.Nodup

/-- A well-formed `CFG` (R6, 70 R263). -/
abbrev Cfg.WellFormed (c : Cfg) : Prop :=
  c.tplCool.length = 39 ∧ c.tplHeat.length = 39 ∧ c.tplOff.length = 39 ∧
  c.OffChecksums ∧ c.FanShape ∧ c.LightShape ∧
  632 ≤ c.plsCap ∧ 36 ≤ c.resetTempX2 ∧ c.resetTempX2 ≤ 64

/-- `CFG_TEST` of 95_test_vectors.md section 0: synthetic, not the device's. -/
def Cfg.test : Cfg where
  tplCool := (List.range 39).map fun i => BitVec.ofNat 8 (17 * i + 3)
  tplHeat := (List.range 39).map fun i => BitVec.ofNat 8 (29 * i + 5)
  tplOff := (List.range 39).map fun i =>
    if i = 19 then 0xE8#8 else if i = 38 then 0xA7#8 else BitVec.ofNat 8 (41 * i + 7)
  fanAuto := 0xA0#8
  fanQuiet := 0xB0#8
  fanLv1 := 0x30#8
  fanLv2 := 0x40#8
  fanLv3 := 0x50#8
  fanLv4 := 0x60#8
  fanLv5 := 0x70#8
  lgtOn := ⟨[3500, 1700, 450, 0], [3500, 1700, 450, 1300, 450, 0], [3500, 1700, 450, 450, 450, 0]⟩
  lgtNight := ⟨[3500, 1700, 450, 1300, 450, 1300, 450, 0], [3500, 1700, 450, 450, 450, 1300, 450, 0], []⟩
  lgtOff := ⟨[3400, 1800, 400, 0], [3400, 1800, 400, 1200, 400, 0], []⟩
  plsCap := 632
  resetMode := .cool
  resetTempX2 := 48

/-- Free value: an arbitrary record, from which `Config.device` is made (log 2). -/
opaque Config.raw : Cfg

/-- The device's `CFG`: an arbitrary well-formed record. Every well-formed record is a possible value, since
`Config.raw` has no body; where `Config.raw` is not well formed `Cfg.test` stands in, so no other value is
possible (R6, R263, U4; DESIGN CHOICE, safe, log 2). -/
def Config.device : Cfg :=
  if Config.raw.WellFormed then Config.raw else Cfg.test

/-- Free value: the clock at reset, "unspecified" (60 R243, U5; log 3). -/
opaque Config.clockAtReset : Time

/-- Free value: the milliseconds that pass after the step numbered `n`, "some amount `delta >= 0`"
(00_scope.md R11; log 3). -/
opaque Config.clockAdvance : (n : Nat) → Nat

end Sys2Proof
end

