-- ==== Sys2Proof/Machine/State.lean ====
section
/-! DEFINITION. The state of the block with the inputs, parameters and outputs of its step relation, its reset, and
the reasons a step can stop (10_state.md, 00_scope.md R11 to R13). -/

namespace Sys2Proof.Machine

/-- The sequencer position (R29). -/
inductive Phase where
  | poll
  | service
deriving DecidableEq, Repr

/-- An event the environment observes (00_scope.md R9, R13). -/
inductive Event where
  | send (pulses : List Duration) (khz : Nat)
  | delay (ms : Nat)
deriving DecidableEq, Repr

/-- The response codes (30_encoding.md R87). -/
inductive ResponseCode where
  | ok
  | invalidTimerDuration
  | unknownScene
  | unknownCommand
deriving DecidableEq, Repr

/-- One response; the payload is empty for every command but `GETSTATUS` (R87). -/
structure Response where
  code : ResponseCode
  payload : Option StatusWord
deriving DecidableEq, Repr

/-- A buffer space by element index, as a list of (index, element) pairs in the canonical form of `Memory.wf`. -/
abbrev Memory (w : Nat) := List (Nat × BitVec w)

/-- The machine's state. -/
structure State where
  /-- `x[0]`: whether the block believes the air conditioner is on (R21). -/
  powerOn : Bool
  /-- `x[1]`: the set temperature in half degrees (R22). -/
  tempX2 : Temp
  /-- `x[2]`: HEAT or COOL (R23). -/
  mode : Mode
  /-- `x[3]`: the fan byte, 0 while unset (R24). -/
  fanHex : Byte
  /-- The deadline, 0 while disarmed (R27). -/
  offDeadline : Time
  /-- The control loop's position (R29). -/
  phase : Phase
  /-- The sticky overflow latch (R32). -/
  fault : Bool
  /-- `FRM`, the 39-byte frame buffer (R30). -/
  frm : Memory 8
  /-- `PLS`, the pulse buffer (R31). -/
  pls : Memory 16
  /-- The fill count of `PLS` (R31). -/
  plsLen : Nat
  /-- The parameters and constant tables, which no operation writes (00_scope.md R6, R33, R34; log 1). -/
  cfg : Cfg
  /-- The clock; its value when a step starts is that step's `now` (00_scope.md R11, R243; log 3). -/
  clock : Time
  /-- The model's own: milliseconds that pass after the coming steps, where a run fixes them (log 4). -/
  elapse : List Nat
  /-- The model's own: the number of steps taken, index of the free advance (log 4). -/
  stepNo : Nat
  /-- What the request layer presents at the coming `SERVICE` steps (00_scope.md R12; log 5). -/
  arrivals : List (Option Cmd)
  /-- The output trace, oldest first (00_scope.md R13). -/
  trace : List Event
  /-- The responses given, oldest first (30_encoding.md R87). -/
  responses : List Response
deriving DecidableEq, Repr

/-- Why the machine stops. -/
inductive Fault where
  /-- Raised by `step` in every state with the latch `fault` set: no step is enabled after a `BufferOverflow`
  (44 R216, 60 R234). Safe: the spec says the block is halted. -/
  | bufferOverflow
deriving DecidableEq, Repr

/-- Why an instruction has no meaning here. -/
inductive Refusal where
  /-- Raised by an arm of `exec` whose instruction is not modelled yet; no arm of this model raises it. Safe. -/
  | notModelled (mnemonic : String)
deriving DecidableEq, Repr

/-- The state after reset for a given `CFG` and clock value (10_state.md R38, 70 R260). `frm`, `pls` and `plsLen`
are unspecified there: DESIGN CHOICE, nothing listed and 0 (log 7). The inputs are empty (log 4, log 5). -/
def State.resetWith (cfg : Cfg) (clock : Time) : State where
  powerOn := false
  tempX2 := BitVec.ofNat 7 cfg.resetTempX2
  mode := cfg.resetMode
  fanHex := 0
  offDeadline := 0
  phase := .poll
  fault := false
  frm := []
  pls := []
  plsLen := 0
  cfg := cfg
  clock := clock
  elapse := []
  stepNo := 0
  arrivals := []
  trace := []
  responses := []

/-- The machine right after reset: the device's `CFG`, any clock value (R38, R243). -/
def State.reset : State := State.resetWith Config.device Config.clockAtReset

end Sys2Proof.Machine
end

