-- ==== Sys2Proof/Machine/Flags.lean ====
section
/-! DEFINITION. The single-bit conditions of the block and the status record made of them (10_state.md R28, R36,
30_encoding.md R88, R104, 40_ac_state_store.md R126, 44 R211). -/

namespace Sys2Proof.Machine

/-- `armed`: `offDeadline != 0` (R28). -/
def State.armed (s : State) : Bool := decide (s.offDeadline ≠ 0)

/-- The timer is armed and its deadline reached or passed at this step's `now` (44 R210, R211). -/
def State.expired (s : State) : Bool := s.armed && decide (0 ≤ signedDiff s.clock s.offDeadline)

/-- Whole seconds from `now` to the deadline, rounded down, 0 when it has passed (40 R126, R133). -/
def secondsLeft (deadline now : Time) : BitVec 32 :=
  if signedDiff deadline now ≤ 0 then 0 else BitVec.ofInt 32 (signedDiff deadline now / 1000)

/-- `timerLeft`: the remaining seconds while armed, else 0 (R88, R126). -/
def State.timerLeft (s : State) : BitVec 32 :=
  if s.armed then secondsLeft s.offDeadline s.clock else 0

/-- The register code of `mode`: HEAT 0, COOL 1 (10_state.md R23). -/
def modeBit : Mode → BitVec 1
  | .heat => 0
  | .cool => 1

/-- The 50-bit status record (R88, R126). -/
def State.statusWord (s : State) : StatusWord :=
  BitVec.ofBool s.powerOn ++ modeBit s.mode ++ s.tempX2 ++ s.fanHex ++ BitVec.ofBool s.armed ++ s.timerLeft

/-- The numeric response code (R87). -/
def ResponseCode.code : ResponseCode → BitVec 4
  | .ok => 0
  | .invalidTimerDuration => 1
  | .unknownScene => 2
  | .unknownCommand => 3

/-- The register code of `phase` (10_state.md R29). -/
def phaseBit : Phase → BitVec 1
  | .poll => 0
  | .service => 1

/-- The temperature text `"<int>.<0|5>"` of a request layer (R104). -/
def temperatureText (t : Temp) : String :=
  toString (t.toNat / 2) ++ (if t.toNat % 2 = 0 then ".0" else ".5")

end Sys2Proof.Machine
end

