-- ==== Sys2Proof/Machine/Literals.lean ====
section
/-! DEFINITION. The numeric literals the document fixes, in one table (00_scope.md R6, 92_eei_decisions.md D28). -/

namespace Sys2Proof.Machine

/-- `T_HDR_MARK` (42 R171). -/
def tHdrMark : Duration := 3400
/-- `T_HDR_SPACE` (42 R171). -/
def tHdrSpace : Duration := 1750
/-- `T_BIT_MARK`, also the trailing marks (42 R171; the spec's decision D31 for the latter). -/
def tBitMark : Duration := 430
/-- `T_ONE_SPACE` (42 R171). -/
def tOneSpace : Duration := 1300
/-- `T_ZERO_SPACE` (42 R171). -/
def tZeroSpace : Duration := 430
/-- `T_GAP` (42 R171). -/
def tGap : Duration := 35000
/-- `T_END` (42 R171). -/
def tEnd : Duration := 0
/-- `CARRIER_KHZ` (42 R171, 43 R192). -/
def carrierKHz : Nat := 38

/-- The lower temperature limit (10_state.md R22). -/
def tempMin : Int := 36
/-- The upper temperature limit (10_state.md R22). -/
def tempMax : Int := 64
/-- The temperature `SETMODE` sets (40 R120). -/
def defaultTemp : Mode → Temp
  | .heat => 55
  | .cool => 48
/-- Milliseconds per minute (40 R124). -/
def msPerMinute : Int := 60000

/-- `L_REPS` (43 R192). -/
def lReps : Nat := 6
/-- `L_SETTLE_MS` (43 R192). -/
def lSettleMs : Nat := 30
/-- `L_FRAME_MS` (43 R192). -/
def lFrameMs : Nat := 40
/-- `L_REP_MS` (43 R192). -/
def lRepMs : Nat := 100
/-- `L_TAIL_MS` (43 R192). -/
def lTailMs : Nat := 50

end Sys2Proof.Machine
end

