-- ==== Sys2Proof/Machine/Operands.lean ====
section
/-! DEFINITION. What each operand token stands for; no value for an unrecognised token (30_encoding.md R82 to R86). -/

namespace Sys2Proof.Machine

/-- The mode a token names (R82). -/
def modeOperand : ModeToken → Option Mode
  | .heat => some .heat
  | .cool => some .cool
  | .unrecognised _ => none

/-- The step a direction token names (R83). -/
def directionOperand : DirectionToken → Option Int
  | .negative => some (-1)
  | .positive => some 1
  | .unrecognised _ => none

/-- The fan byte a selector stands for (R84). -/
def fanOperand (cfg : Cfg) : FanToken → Option Byte
  | .auto => some cfg.fanAuto
  | .quiet => some cfg.fanQuiet
  | .lv1 => some cfg.fanLv1
  | .lv2 => some cfg.fanLv2
  | .lv3 => some cfg.fanLv3
  | .lv4 => some cfg.fanLv4
  | .lv5 => some cfg.fanLv5
  | .unrecognised _ => none

/-- The scene a token names (R86). -/
def sceneOperand : SceneToken → Option Scene
  | .on => some .on
  | .night => some .night
  | .off => some .off
  | .unrecognised _ => none

/-- The stepped temperature: an integer sum, saturated to 36..64 (40 R121, R129). -/
def steppedTemp (t : Temp) (delta : Int) : Temp :=
  BitVec.ofInt 7 (clamp (t.toNat + delta) tempMin tempMax)

/-- The deadline `now + minutes * 60000` modulo `2^32` (40 R124, R131). -/
def deadlineAfter (now : Time) (minutes : Int) : Time :=
  now + BitVec.ofInt 32 (minutes * msPerMinute)

end Sys2Proof.Machine
end

