-- ==== Sys2Proof/Machine/Ops.lean ====
section
/-! DEFINITION. Named operations over the buffer spaces, the registers, the outputs and the errors
(00_scope.md R9, 60_exceptions.md R234, R236). -/

namespace Sys2Proof.Machine

/-- What an unlisted buffer element reads as (DESIGN CHOICE, log 7; no rule reads an element before writing it, R37). -/
def Memory.unlisted (w : Nat) : BitVec w := 0#w

/-- One element of a buffer space. -/
def Memory.read {w : Nat} : Memory w → Nat → BitVec w
  | [], _ => Memory.unlisted w
  | (b, x) :: rest, a => if a = b then x else Memory.read rest a

/-- The canonical form: indices strictly rising, no entry equal to what an unlisted element reads as. -/
def Memory.wf {w : Nat} : Memory w → Bool
  | [] => true
  | (a, v) :: rest => decide (v ≠ Memory.unlisted w) && rest.all (fun c => decide (a < c.1)) && Memory.wf rest

/-- Every listed index lies below `n`. -/
def Memory.within {w : Nat} (n : Nat) (m : Memory w) : Bool := m.all fun c => decide (c.1 < n)

/-- The entries of consecutive elements from index `a`, in the canonical form. -/
def Memory.listed {w : Nat} : Nat → List (BitVec w) → Memory w
  | _, [] => []
  | a, v :: vs =>
    if v = Memory.unlisted w then Memory.listed (a + 1) vs else (a, v) :: Memory.listed (a + 1) vs

/-- `MemWrite(S, a, n, v)` on a buffer space, `n` the length of `v` (R9): the entries below `a`, the written
elements, the entries from `a + n` on. -/
def Memory.writeN {w : Nat} (m : Memory w) (a : Nat) : List (BitVec w) → Memory w
  | [] => m
  | v :: vs =>
    m.filter (fun c => decide (c.1 < a)) ++
      (Memory.listed a (v :: vs) ++ m.filter fun c => decide (a + (v :: vs).length ≤ c.1))

/-- `n` consecutive elements from index `a`, from the entries at and above `a`. -/
def Memory.readFrom {w : Nat} : Nat → Memory w → Nat → List (BitVec w)
  | 0, _, _ => []
  | n + 1, [], a => Memory.unlisted w :: Memory.readFrom n [] (a + 1)
  | n + 1, (b, x) :: rest, a =>
    if a = b then x :: Memory.readFrom n rest (a + 1)
    else Memory.unlisted w :: Memory.readFrom n ((b, x) :: rest) (a + 1)

/-- `MemRead(S, a, n)` on a buffer space (R9). -/
def Memory.readN {w : Nat} (m : Memory w) (a n : Nat) : List (BitVec w) :=
  Memory.readFrom n (m.filter fun c => decide (a ≤ c.1)) a

/-- `MemRead(S, a, n)` on a template; an element that an ill-formed `CFG` lacks reads 0 (R9; log 15). -/
def romRead (rom : List Byte) (a n : Nat) : List Byte :=
  (List.range n).map fun k => rom.getD (a + k) 0

/-- `powerOn <- b`. -/
def State.setPowerOn (s : State) (b : Bool) : State := { s with powerOn := b }

/-- `tempX2 <- t`. -/
def State.setTempX2 (s : State) (t : Temp) : State := { s with tempX2 := t }

/-- `mode <- m`. -/
def State.setMode (s : State) (m : Mode) : State := { s with mode := m }

/-- `fanHex <- f`. -/
def State.setFanHex (s : State) (f : Byte) : State := { s with fanHex := f }

/-- `offDeadline <- d`. -/
def State.setOffDeadline (s : State) (d : Time) : State := { s with offDeadline := d }

/-- `phase <- p`. -/
def State.setPhase (s : State) (p : Phase) : State := { s with phase := p }

/-- `fault <- 1`. -/
def State.setFault (s : State) : State := { s with fault := true }

/-- `MemWrite(FRM, a, n, v)`. -/
def State.writeFrm (s : State) (a : Nat) (bytes : List Byte) : State :=
  { s with frm := s.frm.writeN a bytes }

/-- `MemWrite(PLS, a, n, v)`. -/
def State.writePls (s : State) (a : Nat) (l : List Duration) : State := { s with pls := s.pls.writeN a l }

/-- `plsLen <- n`. -/
def State.setPlsLen (s : State) (n : Nat) : State := { s with plsLen := n }

/-- The request layer's next presentations. -/
def State.setArrivals (s : State) (l : List (Option Cmd)) : State := { s with arrivals := l }

/-- `emit e`: append one event to the output trace (R9, R62). -/
def State.emit (s : State) (e : Event) : State := { s with trace := s.trace ++ [e] }

/-- Append events in order. -/
def State.emitAll (s : State) (l : List Event) : State := { s with trace := s.trace ++ l }

/-- `respond(code, payload)` (R9, R87). -/
def State.respond (s : State) (code : ResponseCode) (payload : Option StatusWord) : State :=
  { s with responses := s.responses ++ [⟨code, payload⟩] }

/-- `respond(OK, -)`. -/
def State.respondOk (s : State) : State := s.respond .ok none

/-- How far the clock advances after this step: what the run fixes, else a free value (00_scope.md R11; log 3, log 4). -/
def State.clockDelta (s : State) : Nat :=
  match s.elapse with
  | d :: _ => d
  | [] => Config.clockAdvance s.stepNo

/-- The time between two samples passes: the clock advances by some `delta >= 0` modulo `2^32` (R11, R243). -/
def State.passTime (s : State) : State :=
  { s with clock := s.clock + BitVec.ofNat 32 s.clockDelta, elapse := s.elapse.tail, stepNo := s.stepNo + 1 }

/-- The AC state registers by number, zero-extended to a byte (10_state.md R20): `x[0]` = `powerOn`, `x[1]` =
`tempX2`, `x[2]` = `mode` (HEAT 0, COOL 1), `x[3]` = `fanHex`. -/
def State.x (s : State) : Fin 4 → Byte
  | 0 => if s.powerOn then 1 else 0
  | 1 => s.tempX2.setWidth 8
  | 2 => match s.mode with | .heat => 0 | .cool => 1
  | 3 => s.fanHex

/-- An operation inside a step either goes on or has abandoned the step (60 R234). -/
inductive Run where
  | going (s : State)
  | abandoned (s : State)
deriving DecidableEq, Repr

/-- The next operation runs only if the step has not been abandoned. -/
def Run.andThen : Run → (State → Run) → Run
  | .going s, f => f s
  | .abandoned s, _ => .abandoned s

/-- The last actions of a step happen only if it has not been abandoned; the state writes already made stand. -/
def Run.finish : Run → (State → State) → State
  | .going s, f => f s
  | .abandoned s, _ => s

/-- `for x in list, in order: f x`. -/
def forEach {α : Type} : List α → (α → State → Run) → State → Run
  | [], _, s => .going s
  | x :: xs, f, s => (f x s).andThen (forEach xs f)

/-- `raise E` for `E` one of the three command errors (60 R236): nothing but the response; the phase moves on as
after any serviced command, and there is nothing to return from (R237). -/
def raiseError (e : ResponseCode) (s : State) : State := s.respond e none

/-- `raise BufferOverflow()` (60 R234): the latch is set and the step is abandoned. -/
def raiseBufferOverflow (s : State) : Run := .abandoned s.setFault

end Sys2Proof.Machine
end

