-- ==== Sys2Proof/Machine/FrameEncoder.lean ====
section
/-! DEFINITION. The AC frame encoder: copy, patch, checksum (41_daikin_frame_encoder.md). -/

namespace Sys2Proof.Machine

/-- The template `mode` selects (R151). -/
def template (cfg : Cfg) : Mode → List Byte
  | .heat => cfg.tplHeat
  | .cool => cfg.tplCool

/-- `CopyTemplate(m)` (R151). -/
def copyTemplate (m : Mode) (s : State) : State := s.writeFrm 0 (romRead (template s.cfg m) 0 39)

/-- The temperature byte (R152, 30 R94). -/
def tempByte (t : Temp) : Byte := BitVec.ofInt 8 (clamp t.toNat tempMin tempMax)

/-- `PatchTemp(t)` (R152). -/
def patchTemp (t : Temp) (s : State) : State := s.writeFrm 26 [tempByte t]

/-- `PatchFan(f)` (R153). -/
def patchFan (f : Byte) (s : State) : State := s.writeFrm 28 [f]

/-- `Checksum1()` (R154). -/
def checksum1 (s : State) : State := s.writeFrm 19 [sum8 (s.frm.readN 0 19)]

/-- `Checksum2()` (R155). -/
def checksum2 (s : State) : State := s.writeFrm 38 [sum8 (s.frm.readN 20 18)]

/-- `EncodeFrame(m, t, f)` (R150). -/
def encodeFrame (m : Mode) (t : Temp) (f : Byte) (s : State) : State :=
  checksum2 (checksum1 (patchFan f (patchTemp t (copyTemplate m s))))

/-- The OFF copy: no patch, no checksum (R156). -/
def copyOff (s : State) : State := s.writeFrm 0 (romRead s.cfg.tplOff 0 39)

end Sys2Proof.Machine
end

