-- ==== Sys2Proof/Machine/WaveEncoder.lean ====
section
/-! DEFINITION. The raw-pulse waveform generator (42_raw_waveform_encoder.md). -/

namespace Sys2Proof.Machine

/-- `Append(d)` (R180). -/
def append (d : Duration) (s : State) : Run :=
  if s.cfg.plsCap ≤ s.plsLen then raiseBufferOverflow s
  else .going ((s.writePls s.plsLen [d]).setPlsLen (s.plsLen + 1))

/-- `Append` of each entry in order, in one go: all of them where they fit, else those that fit and then the
overflow. Law: `appendAll_eq_forEach`. -/
def appendAll (l : List Duration) (s : State) : Run :=
  if l.length ≤ s.cfg.plsCap - s.plsLen then
    .going ((s.writePls s.plsLen l).setPlsLen (s.plsLen + l.length))
  else
    raiseBufferOverflow
      ((s.writePls s.plsLen (l.take (s.cfg.plsCap - s.plsLen))).setPlsLen
        (s.plsLen + (s.cfg.plsCap - s.plsLen)))

/-- The space that codes one bit (R175). -/
def bitSpace (b : Bool) : Duration := if b then tOneSpace else tZeroSpace

/-- The pulses of one byte: per bit a mark and a space, least significant bit first (R98, R174). -/
def byteBits (v : Byte) : List Duration :=
  (List.range 8).flatMap fun k => [tBitMark, bitSpace (v.getLsbD k)]

/-- `bits(L)` (R186). -/
def bits (bytes : List Byte) : List Duration := bytes.flatMap byteBits

/-- The pulses of one IR frame: header, bytes, trailer (R99, R173, R176, R177). -/
def framePulses (bytes : List Byte) (tail : Duration) : List Duration :=
  [tHdrMark, tHdrSpace] ++ bits bytes ++ [tBitMark, tail]

/-- `EmitFrame(first, last, tail)` (R170). -/
def emitFrame (first last : Nat) (tail : Duration) (s : State) : Run :=
  appendAll (framePulses (s.frm.readN first (last + 1 - first)) tail) s

/-- `EncodeWave()` (R170, R172). -/
def encodeWave (s : State) : Run :=
  (emitFrame 0 19 tGap (s.setPlsLen 0)).andThen (emitFrame 20 38 tEnd)

/-- One bit by single appends (R174, R175). -/
def emitBitSingly (b : Bool) (s : State) : Run := (append tBitMark s).andThen (append (bitSpace b))

/-- `EmitByte(v)` by single appends (R174). -/
def emitByteSingly (v : Byte) (s : State) : Run :=
  forEach (List.range 8) (fun k => emitBitSingly (v.getLsbD k)) s

/-- `EmitFrame(first, last, tail)` by single appends, each byte read as it is sent (R170). -/
def emitFrameSingly (first last : Nat) (tail : Duration) (s : State) : Run :=
  ((append tHdrMark s).andThen (append tHdrSpace)).andThen fun s1 =>
    (forEach (List.range' first (last + 1 - first)) (fun i st => emitByteSingly (st.frm.read i) st) s1).andThen
      fun s2 => (append tBitMark s2).andThen (append tail)

/-- `EncodeWave()` as the pseudocode of R170 has it, 632 single appends: the clear form that `encodeWave` is held
against. -/
def encodeWaveSingly (s : State) : Run :=
  (emitFrameSingly 0 19 tGap (s.setPlsLen 0)).andThen (emitFrameSingly 20 38 tEnd)

/-- `wave(B)`, the function form of `EncodeWave` on a 39-byte list (R186). -/
def wave (bytes : List Byte) : List Duration :=
  framePulses (bytes.take 20) tGap ++ framePulses ((bytes.drop 20).take 19) tEnd

/-- The length in microseconds of a pulse train (R183). -/
def pulseTime (pulses : List Duration) : Nat := (pulses.map BitVec.toNat).sum

/-- The number of 1 bits of a byte (R183). -/
def byteOnes (v : Byte) : Nat := ((List.range 8).map fun k => (v.getLsbD k).toNat).sum

end Sys2Proof.Machine
end

