-- ==== Sys2Proof/Machine/Transmit.lean ====
section
/-! DEFINITION. The transmit helpers and the forced power-off (40_ac_state_store.md R123, R127, R128, 42 R182). -/

namespace Sys2Proof.Machine

/-- `emit Send(MemRead(PLS, 0, plsLen), 38)` (42 R182). -/
def sendPulses (s : State) : State := s.emit (.send (s.pls.readN 0 s.plsLen) carrierKHz)

/-- `EncodeWave()`, then the hand-over. -/
def waveAndSend (s : State) : Run := (encodeWave s).andThen fun s1 => .going (sendPulses s1)

/-- `TransmitAC()` (R127). -/
def transmitAC (s : State) : Run := waveAndSend (encodeFrame s.mode s.tempX2 s.fanHex s)

/-- `if powerOn = 1: TransmitAC()` (R121, R122). -/
def transmitIfOn (s : State) : Run := if s.powerOn then transmitAC s else .going s

/-- `TransmitOff()` (R128). -/
def transmitOff (s : State) : Run := waveAndSend (copyOff s)

/-- `ForcedOff()` (R123, 44 R212): transmit, clear `powerOn`, disarm. -/
def forcedOff (s : State) : Run :=
  (transmitOff s).andThen fun s1 => .going ((s1.setPowerOn false).setOffDeadline 0)

end Sys2Proof.Machine
end

