-- ==== Sys2Proof/Machine/AcCommands.lean ====
section
/-! DEFINITION. The meanings of the seven AC commands (40_ac_state_store.md R120 to R126). -/

namespace Sys2Proof.Machine

/-- `if fanHex = 0: fanHex <- FAN_AUTO` (R120). -/
def defaultFan (s : State) : State := if s.fanHex = 0 then s.setFanHex s.cfg.fanAuto else s

/-- The register writes of `SETMODE` (R120). -/
def setmodeWrites (m : Mode) (s : State) : State :=
  defaultFan (((s.setMode m).setTempX2 (defaultTemp m)).setPowerOn true)

/-- `SETMODE` (R120; that it transmits is the spec's decision D9, log 11). -/
def execSetmode (token : ModeToken) (s : State) : Host.Outcome State Fault Refusal :=
  .next <|
    match modeOperand token with
    | none => s.respondOk
    | some m => (transmitAC (setmodeWrites m s)).finish State.respondOk

/-- `STEPTEMP` (R121; silent no-op for an unknown direction is the spec's decision D18, log 11). -/
def execSteptemp (token : DirectionToken) (s : State) : Host.Outcome State Fault Refusal :=
  .next <|
    match directionOperand token with
    | none => s.respondOk
    | some delta => (transmitIfOn (s.setTempX2 (steppedTemp s.tempX2 delta))).finish State.respondOk

/-- `SETFAN` (R122). -/
def execSetfan (token : FanToken) (s : State) : Host.Outcome State Fault Refusal :=
  .next <|
    match fanOperand s.cfg token with
    | none => s.respondOk
    | some f => (transmitIfOn (s.setFanHex f)).finish State.respondOk

/-- `POWEROFF` (R123); the operand is ignored (30 R89). -/
def execPoweroff (_arg : Arg) (s : State) : Host.Outcome State Fault Refusal :=
  .next ((forcedOff s).finish State.respondOk)

/-- `ARMTIMER` (R124): the sign test comes first (60 R230). -/
def execArmtimer (minutes : Int) (s : State) : Host.Outcome State Fault Refusal :=
  .next <|
    if minutes ≤ 0 then raiseError .invalidTimerDuration s
    else (s.setOffDeadline (deadlineAfter s.clock minutes)).respondOk

/-- `CANCELTIMER` (R125); the operand is ignored (30 R89). -/
def execCanceltimer (_arg : Arg) (s : State) : Host.Outcome State Fault Refusal :=
  .next (s.setOffDeadline 0).respondOk

/-- `GETSTATUS` (R126); the operand is ignored (30 R89). -/
def execGetstatus (_arg : Arg) (s : State) : Host.Outcome State Fault Refusal :=
  .next (s.respond .ok (some s.statusWord))

end Sys2Proof.Machine
end

