-- ==== Sys2Proof/Machine/LightPlayer.lean ====
section
/-! DEFINITION. The light scene player and the meaning of `PLAYLIGHT` (43_panasonic_light_player.md). -/

namespace Sys2Proof.Machine

/-- The slots of one repetition, `sent` frames of it sent so far: empty slots are skipped, a delay only between two
frames (R190, R194). -/
def playSlots : Nat → List (List Duration) → List Event
  | _, [] => []
  | sent, f :: rest =>
    if 0 < f.length then
      (if 0 < sent then [Event.delay lFrameMs] else []) ++ Event.send f carrierKHz :: playSlots (sent + 1) rest
    else playSlots sent rest

/-- Repetition `r`: a delay before every repetition but the first (R190). -/
def playRepetition (slots : List (List Duration)) (r : Nat) : List Event :=
  (if 0 < r then [Event.delay lRepMs] else []) ++ playSlots 0 slots

/-- The events of one scene (R190). -/
def playScene (slots : List (List Duration)) : List Event :=
  Event.delay lSettleMs :: (List.range lReps).flatMap (playRepetition slots) ++ [Event.delay lTailMs]

/-- `PLAYLIGHT` (R190); an unknown scene fails before anything is emitted (60 R231). -/
def execPlaylight (token : SceneToken) (s : State) : Host.Outcome State Fault Refusal :=
  .next <|
    match sceneOperand token with
    | none => raiseError .unknownScene s
    | some scene => (s.emitAll (playScene (s.cfg.scene scene).slots)).respondOk

end Sys2Proof.Machine
end

