-- ==== Sys2Proof/Machine/Dispatch.lean ====
section
/-! DEFINITION. The dispatch of 44_off_timer_and_control_loop.md R217, one arm per command. -/

namespace Sys2Proof.Machine

/-- What a command does (R217). -/
def exec (i : Instr) (s : State) : Host.Outcome State Fault Refusal :=
  match i with
  | .setmode token => Sys2Proof.Machine.execSetmode token s
  | .steptemp token => Sys2Proof.Machine.execSteptemp token s
  | .setfan token => Sys2Proof.Machine.execSetfan token s
  | .poweroff arg => Sys2Proof.Machine.execPoweroff arg s
  | .armtimer minutes => Sys2Proof.Machine.execArmtimer minutes s
  | .canceltimer arg => Sys2Proof.Machine.execCanceltimer arg s
  | .getstatus arg => Sys2Proof.Machine.execGetstatus arg s
  | .playlight token => Sys2Proof.Machine.execPlaylight token s

end Sys2Proof.Machine
end

