-- ==== Sys2Proof/Machine/ControlLoop.lean ====
section
/-! DEFINITION. The timer poll and the control loop (44_off_timer_and_control_loop.md R210 to R217). -/

namespace Sys2Proof.Machine

/-- `TICK()` (R210, R212). -/
def tick (s : State) : Run := if s.expired then forcedOff s else .going s

/-- The end of a step: the loop moves to `p` unless the step was abandoned (60 R234), and time passes (R11). -/
def endStep (p : Phase) (s : State) : State :=
  (if s.fault then s else s.setPhase p).passTime

/-- A `POLL` step (R216). -/
def pollStep (s : State) : State := endStep .service ((tick s).finish id)

/-- `Execute(cmd)` (R217): a reserved `op` raises `UnknownCommand` (30 R90, 60 R233). -/
def execute (cmd : Cmd) (s : State) : Host.Outcome State Fault Refusal :=
  match decode cmd with
  | .ok i => exec i s
  | .error _ => .next (raiseError .unknownCommand s)

/-- The end of a serviced command. -/
def endService : Host.Outcome State Fault Refusal → Host.Outcome State Fault Refusal
  | .next s => .next (endStep .poll s)
  | .fault r => .fault r
  | .refused r => .refused r

/-- A `SERVICE` step (R216): at most one command; nothing but the move to `POLL` when none is presented. -/
def serviceStep (s : State) : Host.Outcome State Fault Refusal :=
  match s.arrivals with
  | [] => .next (endStep .poll s)
  | none :: rest => .next (endStep .poll (s.setArrivals rest))
  | some cmd :: rest => endService (execute cmd (s.setArrivals rest))

/-- One step of the loop (R216): none is enabled while the latch is set (60 R234). -/
def loopStep (s : State) : Host.Outcome State Fault Refusal :=
  if s.fault then .fault .bufferOverflow
  else
    match s.phase with
    | .poll => .next (pollStep s)
    | .service => serviceStep s

/-- The request layer presents `cmd` at the very next step, in place of what it would present at the next
`SERVICE` step. -/
def presentCommand (s : State) (cmd : Cmd) : State :=
  (s.setPhase .service).setArrivals (some cmd :: s.arrivals.tail)

end Sys2Proof.Machine
end

