-- ==== Sys2Proof/Machine/Step.lean ====
section
/-! DEFINITION. The step of the machine (44_off_timer_and_control_loop.md R216). -/

namespace Sys2Proof.Machine

/-- One step: a `TICK` or the service of at most one command. -/
def step (s : State) : Host.Outcome State Fault Refusal := loopStep s

/-- `s` in the `SERVICE` phase with the word of bits `w` presented next (log 5, log 16); bits above bit 35 are dropped. -/
def State.withFetchWord (s : State) (nbits w : Nat) : State :=
  presentCommand s (BitVec.ofNat 36 (w % 2 ^ nbits))

end Sys2Proof.Machine
end

