-- ==== Sys2Proof/WellFormed.lean ====
section
/-! DEFINITION. Which terms of `Instr` stand for a command word: an unrecognised token is no token of the table,
and `minutes` fits a signed 32-bit operand (30_encoding.md R82 to R86). -/

namespace Sys2Proof

/-- An unrecognised mode token is not 0 or 1 (R82). -/
def ModeToken.wf : ModeToken → Bool
  | .unrecognised arg => decide (2 ≤ arg.toNat)
  | _ => true

/-- An unrecognised direction token is not 0 or 1 (R83). -/
def DirectionToken.wf : DirectionToken → Bool
  | .unrecognised arg => decide (2 ≤ arg.toNat)
  | _ => true

/-- An unrecognised fan selector is above 6 (R84). -/
def FanToken.wf : FanToken → Bool
  | .unrecognised arg => decide (7 ≤ arg.toNat)
  | _ => true

/-- An unrecognised scene is above 2 (R86). -/
def SceneToken.wf : SceneToken → Bool
  | .unrecognised arg => decide (3 ≤ arg.toNat)
  | _ => true

/-- Range of the signed 32-bit operand (R85). -/
def minutesInRange (minutes : Int) : Bool :=
  decide (-2147483648 ≤ minutes ∧ minutes ≤ 2147483647)

/-- A well-formed command. -/
def Instr.wf : Instr → Bool
  | .setmode t => t.wf
  | .steptemp t => t.wf
  | .setfan t => t.wf
  | .poweroff _ => true
  | .armtimer minutes => minutesInRange minutes
  | .canceltimer _ => true
  | .getstatus _ => true
  | .playlight t => t.wf

end Sys2Proof
end

