-- ==== Sys2Proof/Safety.lean ====
section
/-! DEFINITION. The terms claims use: the frame layout as a function, the invariants of the block and of its trace
(10_state.md R22, R24, R26, R41, 20_memory.md R52, 41 R159). -/

namespace Sys2Proof.Machine

/-- Byte `i` of the patched sub-frame payloads: the template's byte, the temperature at 26, the fan at 28 (20 R52). -/
def payloadByte (cfg : Cfg) (m : Mode) (t : Temp) (f : Byte) (i : Nat) : Byte :=
  if i = 26 then tempByte t else if i = 28 then f else (template cfg m).getD i 0

/-- The AC frame as a function of its inputs, by the table of 20_memory.md R52. -/
def acFrame (cfg : Cfg) (m : Mode) (t : Temp) (f : Byte) : List Byte :=
  (List.range 39).map fun i =>
    if i = 19 then sum8 ((List.range' 0 19).map (payloadByte cfg m t f))
    else if i = 38 then sum8 ((List.range' 20 18).map (payloadByte cfg m t f))
    else payloadByte cfg m t f i

/-- The 39 bytes of `TPL.OFF`. -/
def offFrame (cfg : Cfg) : List Byte := romRead cfg.tplOff 0 39

/-- The event of one AC transmission: one `RawSend` of the pulse train of `frame` (42 R182). -/
def acSend (frame : List Byte) : Event := .send (wave frame) carrierKHz

/-- What a transmission of `frame` leaves in the buffers of `t`, and which elements keep what they held in `s`:
every element outside `FRM[0..38]` and `PLS[0..631]`. -/
def BuffersHold (s t : State) (frame : List Byte) : Prop :=
  t.plsLen = 632 ∧ t.frm.readN 0 39 = frame ∧ (∀ a, 39 ≤ a → t.frm.read a = s.frm.read a) ∧
    t.pls.readN 0 632 = wave frame ∧ (∀ a, 632 ≤ a → t.pls.read a = s.pls.read a)

/-- Both checksum bytes agree with the bytes before them (30 R96, 41 R159). -/
def ChecksumsConsistent (frame : List Byte) : Prop :=
  frame.length = 39 ∧ frame[19]? = some (sum8 (frame.take 19)) ∧
    frame[38]? = some (sum8 ((frame.drop 20).take 18))

/-- The seven non-empty light frames of `CFG` and the empty slots (43 R191). -/
def lightFrames (cfg : Cfg) : List (List Duration) :=
  cfg.lgtOn.slots ++ cfg.lgtNight.slots ++ cfg.lgtOff.slots

/-- The AC events: one `Send` at 38 kHz of the pulse train of a 39-byte frame with consistent checksums. -/
def IsAcSend (e : Event) : Prop :=
  ∃ frame, ChecksumsConsistent frame ∧ e = acSend frame

/-- The light events: a stored, non-empty frame at 38 kHz, or one of the four delays. -/
def IsLightEvent (cfg : Cfg) (e : Event) : Prop :=
  (∃ f, f ∈ lightFrames cfg ∧ f ≠ [] ∧ e = .send f carrierKHz) ∨
    (∃ ms, ms ∈ [lSettleMs, lFrameMs, lRepMs, lTailMs] ∧ e = .delay ms)

/-- Every event the block has emitted is one of these (R41, 20 R62). -/
def TraceSound (s : State) : Prop := ∀ e ∈ s.trace, IsAcSend e ∨ IsLightEvent s.cfg e

/-- The invariant of the block. -/
structure Inv (s : State) : Prop where
  /-- `CFG` is well formed (70 R263). -/
  cfgWf : s.cfg.WellFormed
  /-- `36 <= tempX2 <= 64` (R22). -/
  tempRange : 36 ≤ s.tempX2.toNat ∧ s.tempX2.toNat ≤ 64
  /-- `powerOn = 1` implies `fanHex != 0` (R26). -/
  fanSet : s.powerOn = true → s.fanHex ≠ 0
  /-- `fanHex` is 0 or one of the seven fan codes (R24). -/
  fanLegal : s.fanHex = 0 ∨ s.fanHex ∈ s.cfg.fanCodes
  /-- The buffers keep the canonical form and their extents (R30, R31, R54). -/
  frmWf : s.frm.wf = true
  frmWithin : s.frm.within 39 = true
  plsWf : s.pls.wf = true
  plsWithin : s.pls.within s.cfg.plsCap = true
  plsLenLe : s.plsLen ≤ s.cfg.plsCap
  /-- The latch is never set (R32, 42 R181). -/
  noFault : s.fault = false

/-- Two states that may differ in `mode` and `tempX2` while off, in the two reset parameters and in the payloads of
past responses. -/
def AlikeButForUnsentSettings (s s' : State) : Prop :=
  ∃ (mode : Mode) (temp : Temp) (resetMode : Mode) (resetTemp : Nat) (responses : List Response),
    s' = { s with
           mode := mode, tempX2 := temp, responses := responses
           cfg := { s.cfg with resetMode := resetMode, resetTempX2 := resetTemp } } ∧
    (s.powerOn = true → mode = s.mode ∧ temp = s.tempX2) ∧
    responses.map Response.code = s.responses.map Response.code

end Sys2Proof.Machine
end

