-- ==== Sys2Proof/Certificates/Slice0/Obligations.lean ====
section
/-! DEFINITION. The statements for the provers. `D<n>`, `R<n>` and `U<n>` are of `spec/`, "log <n>" is
`notes/assumptions/<n>.md`. -/

open Sys2Proof Sys2Proof.Machine

/-! ## Encoding -/

/-- No bit of a command is lost: decoding the word of a well-formed command gives it back (R80 to R86; the binary
form is the spec's decision D5). -/
def Obligations.DecodeOfEncodeIsIdentity : Prop :=
  ∀ i : Instr, i.wf = true → decode (encode i) = .ok i

/-- Each accepted word has one meaning: it is the word of the well-formed command it decodes to (R80 to R86, D5). -/
def Obligations.EncodeOfDecodeIsIdentity : Prop :=
  ∀ (cmd : Cmd) (i : Instr), decode cmd = .ok i → i.wf = true ∧ encode i = cmd

/-- A word is a command exactly when its `op` is 1 to 8; every other `op` is rejected by name (R81, R90, D17). -/
def Obligations.DecoderAcceptsOpcodesOneToEight : Prop :=
  ∀ cmd : Cmd,
    ((∃ i, decode cmd = .ok i) ↔ 1 ≤ (opField cmd).toNat ∧ (opField cmd).toNat ≤ 8) ∧
    (¬ (1 ≤ (opField cmd).toNat ∧ (opField cmd).toNat ≤ 8) →
      decode cmd = .error (.reservedOpcode (opField cmd)))

/-- Words written out in R102 decode to the command of their text. -/
def Obligations.WordsOfTheSyntaxTableDecode : Prop :=
  decode 0x100000000#36 = .ok (.setmode .heat) ∧ decode 0x100000001#36 = .ok (.setmode .cool) ∧
  decode 0x200000000#36 = .ok (.steptemp .negative) ∧ decode 0x200000001#36 = .ok (.steptemp .positive) ∧
  decode 0x300000000#36 = .ok (.setfan .auto) ∧ decode 0x300000001#36 = .ok (.setfan .quiet) ∧
  decode 0x300000002#36 = .ok (.setfan .lv1) ∧ decode 0x300000006#36 = .ok (.setfan .lv5) ∧
  decode 0x400000000#36 = .ok (.poweroff 0) ∧ decode 0x50000001E#36 = .ok (.armtimer 30) ∧
  decode 0x5FFFFFFFB#36 = .ok (.armtimer (-5)) ∧ decode 0x600000000#36 = .ok (.canceltimer 0) ∧
  decode 0x700000000#36 = .ok (.getstatus 0) ∧ decode 0x800000000#36 = .ok (.playlight .on) ∧
  decode 0x800000001#36 = .ok (.playlight .night) ∧ decode 0x800000002#36 = .ok (.playlight .off)

/-! ## The control loop -/

/-- A `SERVICE` step runs the decoded command: `exec` on the state with the command taken, then, unless the latch was
set, the move to `POLL`; then time passes (R216, R217, D19; the passing of time is the model's, log 3, log 4). The
latch is R234, the spec's decision D20; that the step which sets it answers a next state, with the command consumed,
the phase left where it was and time passed, is the model's choice, log 9. -/
def Obligations.ServiceStepRunsDecodedCommand : Prop :=
  ∀ (s t : State) (cmd : Cmd) (rest : List (Option Cmd)) (i : Instr),
    s.fault = false → s.phase = .service → s.arrivals = some cmd :: rest → decode cmd = .ok i →
    exec i { s with arrivals := rest } = .next t →
    step s = .next
      { t with
        phase := if t.fault then t.phase else .poll
        clock := t.clock + BitVec.ofNat 32 t.clockDelta
        elapse := t.elapse.tail
        stepNo := t.stepNo + 1 }

/-- `withFetchWord` presents the word at the very next step (log 5, log 16). -/
def Obligations.FetchWordIsServicedNext : Prop :=
  ∀ (s : State) (nbits w : Nat) (i : Instr), s.fault = false → decodeTableWord nbits w = some i →
    step (s.withFetchWord nbits w) =
      endService (exec i { s with phase := .service, arrivals := s.arrivals.tail })

/-- A `SERVICE` step with no command presented only moves to `POLL` (R216, D19; time passes, log 3). -/
def Obligations.IdleServiceOnlyMovesToPoll : Prop :=
  ∀ s : State, s.fault = false → s.phase = .service →
    (∀ rest, s.arrivals = none :: rest →
      step s = .next ({ s with arrivals := rest, phase := .poll } : State).passTime) ∧
    (s.arrivals = [] → step s = .next ({ s with phase := .poll } : State).passTime)

/-- `TICK` while the timer has not expired: nothing but the move to `SERVICE` (R210, R216; time passes, log 3). -/
def Obligations.PollBeforeDeadlineDoesNothing : Prop :=
  ∀ s : State, s.fault = false → s.phase = .poll →
    (s.offDeadline = 0 ∨ (s.clock - s.offDeadline).toInt < 0) →
    step s = .next ({ s with phase := .service } : State).passTime

/-- `TICK` on expiry: exactly one OFF frame is sent, `powerOn` and `offDeadline` are cleared, nothing else changes
(R210, R212; that `powerOn` is cleared is the spec's decision D10; time passes, log 3). -/
def Obligations.ExpiredPollForcesOff : Prop :=
  ∀ s : State, s.fault = false → s.phase = .poll → 632 ≤ s.cfg.plsCap →
    s.offDeadline ≠ 0 → 0 ≤ (s.clock - s.offDeadline).toInt →
    ∃ t, step s = .next t ∧ BuffersHold s t (offFrame s.cfg) ∧
      t = { s with
            powerOn := false, offDeadline := 0, phase := .service
            frm := t.frm, pls := t.pls, plsLen := 632
            trace := s.trace ++ [acSend (offFrame s.cfg)]
            clock := s.clock + BitVec.ofNat 32 s.clockDelta, elapse := s.elapse.tail, stepNo := s.stepNo + 1 }

/-- The expiry test: armed, and the modular difference read as a signed number is not negative; right for any
distance below `2^31` ms, across the wrap too (R211). -/
def Obligations.ExpiryIsSignedDifference : Prop :=
  (∀ s : State, s.expired = true ↔ s.offDeadline ≠ 0 ∧ 0 ≤ (s.clock - s.offDeadline).toInt) ∧
  (∀ (s : State) (e : Nat), e < 2 ^ 31 → s.offDeadline ≠ 0 →
    (s.clock = s.offDeadline + BitVec.ofNat 32 e → s.expired = true) ∧
    (0 < e → s.clock = s.offDeadline - BitVec.ofNat 32 e → s.expired = false))

/-! ## AC commands -/

/-- `SETMODE` with a recognised token: `mode`, the mode's default temperature, `powerOn`, the fan defaulted to
`FAN_AUTO` when unset, one frame of the new state sent, `OK`; nothing else changes (R120; that it transmits is the
spec's decision D9). -/
def Obligations.SetmodeSetsModeAndTransmits : Prop :=
  ∀ (s : State) (token : ModeToken) (m : Mode) (temp : Temp) (fan : Byte), 632 ≤ s.cfg.plsCap →
    ((token, m, temp) = (ModeToken.heat, Mode.heat, 55#7) ∨ (token, m, temp) = (ModeToken.cool, Mode.cool, 48#7)) →
    fan = (if s.fanHex = 0 then s.cfg.fanAuto else s.fanHex) →
    ∃ t, exec (.setmode token) s = .next t ∧ BuffersHold s t (acFrame s.cfg m temp fan) ∧
      t = { s with
            mode := m, tempX2 := temp, powerOn := true, fanHex := fan
            frm := t.frm, pls := t.pls, plsLen := 632
            trace := s.trace ++ [acSend (acFrame s.cfg m temp fan)]
            responses := s.responses ++ [⟨.ok, none⟩] }

/-- `STEPTEMP` while off: the step is saturated to 36..64 and nothing is sent (R121, R129). -/
def Obligations.SteptempWhileOffOnlySteps : Prop :=
  ∀ s : State, s.powerOn = false →
    exec (.steptemp .positive) s = .next
      { s with
        tempX2 := BitVec.ofNat 7 (max 36 (min 64 (s.tempX2.toNat + 1)))
        responses := s.responses ++ [⟨.ok, none⟩] } ∧
    exec (.steptemp .negative) s = .next
      { s with
        tempX2 := BitVec.ofNat 7 (max 36 (min 64 (s.tempX2.toNat - 1)))
        responses := s.responses ++ [⟨.ok, none⟩] }

/-- `STEPTEMP` while on: the saturated step and one frame of the new state, also when the clamp left the register
unchanged (R121, R129; the latter is the spec's decision D23). -/
def Obligations.SteptempWhileOnRetransmits : Prop :=
  ∀ (s : State) (token : DirectionToken) (temp : Temp), s.powerOn = true → 632 ≤ s.cfg.plsCap →
    ((token = .positive ∧ temp = BitVec.ofNat 7 (max 36 (min 64 (s.tempX2.toNat + 1)))) ∨
      (token = .negative ∧ temp = BitVec.ofNat 7 (max 36 (min 64 (s.tempX2.toNat - 1))))) →
    ∃ t, exec (.steptemp token) s = .next t ∧ BuffersHold s t (acFrame s.cfg s.mode temp s.fanHex) ∧
      t = { s with
            tempX2 := temp, frm := t.frm, pls := t.pls, plsLen := 632
            trace := s.trace ++ [acSend (acFrame s.cfg s.mode temp s.fanHex)]
            responses := s.responses ++ [⟨.ok, none⟩] }

/-- `SETFAN` with each of the seven selectors: the fan byte of `CFG`; one frame of the new state when on, nothing
sent when off (R84, R122; selector numbers are D5, retransmitting an unchanged code is D23). -/
def Obligations.SetfanSetsFanAndTransmitsWhenOn : Prop :=
  ∀ (s : State) (token : FanToken) (fan : Byte),
    (token, fan) ∈ [(FanToken.auto, s.cfg.fanAuto), (.quiet, s.cfg.fanQuiet), (.lv1, s.cfg.fanLv1),
      (.lv2, s.cfg.fanLv2), (.lv3, s.cfg.fanLv3), (.lv4, s.cfg.fanLv4), (.lv5, s.cfg.fanLv5)] →
    (s.powerOn = false →
      exec (.setfan token) s = .next { s with fanHex := fan, responses := s.responses ++ [⟨.ok, none⟩] }) ∧
    (s.powerOn = true → 632 ≤ s.cfg.plsCap →
      ∃ t, exec (.setfan token) s = .next t ∧ BuffersHold s t (acFrame s.cfg s.mode s.tempX2 fan) ∧
        t = { s with
              fanHex := fan, frm := t.frm, pls := t.pls, plsLen := 632
              trace := s.trace ++ [acSend (acFrame s.cfg s.mode s.tempX2 fan)]
              responses := s.responses ++ [⟨.ok, none⟩] })

/-- `POWEROFF` (`op` 4), whatever `powerOn` and the operand: the constant OFF frame is sent, `powerOn` cleared, the
timer disarmed, `OK`; nothing else changes (R123). -/
def Obligations.PoweroffSendsOffFrame : Prop :=
  (∀ (s : State) (cmd : Cmd), opField cmd = 4 → execute cmd s = exec (.poweroff (argField cmd)) s) ∧
  ∀ (s : State) (arg : Arg), 632 ≤ s.cfg.plsCap →
    ∃ t, exec (.poweroff arg) s = .next t ∧ BuffersHold s t (offFrame s.cfg) ∧
      t = { s with
            powerOn := false, offDeadline := 0, frm := t.frm, pls := t.pls, plsLen := 632
            trace := s.trace ++ [acSend (offFrame s.cfg)]
            responses := s.responses ++ [⟨.ok, none⟩] }

/-- `ARMTIMER` with a non-positive duration: only the error response (R230). -/
def Obligations.ArmtimerRejectsNonPositive : Prop :=
  (∀ (s : State) (minutes : Int), minutes ≤ 0 →
    exec (.armtimer minutes) s = .next { s with responses := s.responses ++ [⟨.invalidTimerDuration, none⟩] }) ∧
  (∀ (s : State) (cmd : Cmd), opField cmd = 5 → (argField cmd).toInt ≤ 0 →
    execute cmd s = .next { s with responses := s.responses ++ [⟨.invalidTimerDuration, none⟩] })

/-- `ARMTIMER` with a positive duration: the deadline `(now + minutes * 60000) mod 2^32`, whatever stood there;
nothing is sent and `powerOn` is not consulted (R124, R131; the width is the spec's decision D2, D4). -/
def Obligations.ArmtimerSetsDeadline : Prop :=
  ∀ (s : State) (minutes : Nat), 0 < minutes →
    exec (.armtimer minutes) s = .next
      { s with
        offDeadline := BitVec.ofNat 32 ((s.clock.toNat + minutes * 60000) % 2 ^ 32)
        responses := s.responses ++ [⟨.ok, none⟩] } ∧
    (∀ cmd : Cmd, opField cmd = 5 → (argField cmd).toInt = minutes → execute cmd s = exec (.armtimer minutes) s)

/-- Arming while armed replaces the deadline: the earlier one leaves no trace (R214). -/
def Obligations.ArmtimerForgetsEarlierDeadline : Prop :=
  ∀ (s : State) (d : Time) (minutes : Int), 0 < minutes →
    ∃ t, exec (.armtimer minutes) s = .next t ∧ exec (.armtimer minutes) { s with offDeadline := d } = .next t

/-- For 1 to 35791 minutes the timer is a delay: armed at `now` with a nonzero deadline it has expired `e` ms later
exactly when `e` has reached `minutes * 60000` (R272, R132, D2). -/
def Obligations.TimerIsDelayWithinRange : Prop :=
  ∀ (s t : State) (minutes e : Nat) (u : State), 1 ≤ minutes → minutes ≤ 35791 →
    exec (.armtimer minutes) s = .next t → t.offDeadline ≠ 0 → e < minutes * 60000 + 2 ^ 31 →
    u.offDeadline = t.offDeadline → u.clock = s.clock + BitVec.ofNat 32 e →
    (u.expired = true ↔ minutes * 60000 ≤ e)

/-- For 35792 to 71582 minutes the timer has expired as soon as it is armed (R272, D2, D4). -/
def Obligations.TimerBeyondRangeFiresAtOnce : Prop :=
  ∀ (s t : State) (minutes e : Nat) (u : State), 35792 ≤ minutes → minutes ≤ 71582 →
    exec (.armtimer minutes) s = .next t → t.offDeadline ≠ 0 → e < minutes * 60000 - 2 ^ 31 →
    u.offDeadline = t.offDeadline → u.clock = s.clock + BitVec.ofNat 32 e → u.expired = true

/-- A computed deadline of 0 leaves the timer disarmed although the command answers `OK` (R271, D21). -/
def Obligations.ZeroDeadlineLeavesDisarmed : Prop :=
  ∀ (s : State) (minutes : Nat), 0 < minutes → (s.clock.toNat + minutes * 60000) % 2 ^ 32 = 0 →
    ∃ t, exec (.armtimer minutes) s = .next t ∧ t.armed = false ∧ t.responses = s.responses ++ [⟨.ok, none⟩]

/-- `CANCELTIMER` (`op` 6): the timer disarmed and `OK`, nothing sent, nothing else changed, whether it was armed or
not and whatever the operand (R125). -/
def Obligations.CanceltimerDisarms : Prop :=
  (∀ (s : State) (cmd : Cmd), opField cmd = 6 → execute cmd s = exec (.canceltimer (argField cmd)) s) ∧
  ∀ (s : State) (arg : Arg),
    exec (.canceltimer arg) s = .next
      { s with offDeadline := 0, responses := s.responses ++ [⟨.ok, none⟩] } ∧
    ({ s with offDeadline := 0, responses := s.responses ++ [⟨.ok, none⟩] } : State).armed = false

/-- `GETSTATUS` changes no state and answers the status record, field by field (R88, R126, R133; the record and the
rounding are the spec's decisions D6, D16, D29). -/
def Obligations.GetstatusAnswersRecord : Prop :=
  ∀ (s : State) (arg : Arg), ∃ st : StatusWord,
    exec (.getstatus arg) s = .next { s with responses := s.responses ++ [⟨.ok, some st⟩] } ∧
    st.getLsbD 49 = s.powerOn ∧ st.getLsbD 48 = decide (s.mode = .cool) ∧
    st.extractLsb' 41 7 = s.tempX2 ∧ st.extractLsb' 33 8 = s.fanHex ∧
    st.getLsbD 32 = decide (s.offDeadline ≠ 0) ∧
    ((st.extractLsb' 0 32).toNat : Int) =
      if s.offDeadline ≠ 0 ∧ 0 < (s.offDeadline - s.clock).toInt then (s.offDeadline - s.clock).toInt / 1000 else 0

/-- `POWEROFF`, `CANCELTIMER` and `GETSTATUS` ignore `arg` (R89, D22). -/
def Obligations.OperandlessCommandsIgnoreArg : Prop :=
  ∀ (s : State) (cmd cmd' : Cmd), opField cmd = opField cmd' →
    (opField cmd = 4 ∨ opField cmd = 6 ∨ opField cmd = 7) → execute cmd s = execute cmd' s

/-- An unrecognised mode, direction or fan token changes nothing and answers `OK` (R91, R232; for the direction it is
the spec's decision D18). -/
def Obligations.UnrecognisedTokenIsSilentNoOp : Prop :=
  ∀ (s : State) (cmd : Cmd),
    ((opField cmd = 1 ∧ 1 < (argField cmd).toNat) ∨ (opField cmd = 2 ∧ 1 < (argField cmd).toNat) ∨
      (opField cmd = 3 ∧ 6 < (argField cmd).toNat)) →
    execute cmd s = .next { s with responses := s.responses ++ [⟨.ok, none⟩] }

/-- A command error is precise: a step that services a reserved `op`, a non-positive duration or an unknown scene
gives the error response, moves to `POLL` and changes nothing else (R236, R230, R231; that a reserved `op` answers
`UnknownCommand`, R90 and R233, is the spec's decision D17, log 11; time passes, log 3). -/
def Obligations.CommandErrorsArePrecise : Prop :=
  ∀ (s : State) (cmd : Cmd) (rest : List (Option Cmd)) (e : ResponseCode),
    s.fault = false → s.phase = .service → s.arrivals = some cmd :: rest →
    ((e = .unknownCommand ∧ ((opField cmd).toNat = 0 ∨ 9 ≤ (opField cmd).toNat)) ∨
      (e = .invalidTimerDuration ∧ opField cmd = 5 ∧ (argField cmd).toInt ≤ 0) ∨
      (e = .unknownScene ∧ opField cmd = 8 ∧ 2 < (argField cmd).toNat)) →
    step s = .next
      { s with
        arrivals := rest, responses := s.responses ++ [⟨e, none⟩], phase := .poll
        clock := s.clock + BitVec.ofNat 32 s.clockDelta, elapse := s.elapse.tail, stepNo := s.stepNo + 1 }

/-! ## The light player -/

/-- `PLAYLIGHT` on a light table of the stated shape: the event sequence of each scene, `OK`, nothing else changed
(R190, R191, R194; the placement of the delays is the spec's decision D15). -/
def Obligations.PlaylightEmitsScene : Prop :=
  ∀ s : State, s.cfg.LightShape →
    (∃ t, exec (.playlight .on) s = .next t ∧
      t = { s with
            trace := s.trace ++ ([.delay 30] ++
              (List.replicate 5 [Event.send s.cfg.lgtOn.slot0 38, .delay 40, .send s.cfg.lgtOn.slot1 38, .delay 40,
                .send s.cfg.lgtOn.slot2 38, .delay 100]).flatten ++
              [.send s.cfg.lgtOn.slot0 38, .delay 40, .send s.cfg.lgtOn.slot1 38, .delay 40,
                .send s.cfg.lgtOn.slot2 38, .delay 50])
            responses := s.responses ++ [⟨.ok, none⟩] }) ∧
    (∃ t, exec (.playlight .night) s = .next t ∧
      t = { s with
            trace := s.trace ++ ([.delay 30] ++
              (List.replicate 5 [Event.send s.cfg.lgtNight.slot0 38, .delay 40, .send s.cfg.lgtNight.slot1 38,
                .delay 100]).flatten ++
              [.send s.cfg.lgtNight.slot0 38, .delay 40, .send s.cfg.lgtNight.slot1 38, .delay 50])
            responses := s.responses ++ [⟨.ok, none⟩] }) ∧
    (∃ t, exec (.playlight .off) s = .next t ∧
      t = { s with
            trace := s.trace ++ ([.delay 30] ++
              (List.replicate 5 [Event.send s.cfg.lgtOff.slot0 38, .delay 40, .send s.cfg.lgtOff.slot1 38,
                .delay 100]).flatten ++
              [.send s.cfg.lgtOff.slot0 38, .delay 40, .send s.cfg.lgtOff.slot1 38, .delay 50])
            responses := s.responses ++ [⟨.ok, none⟩] })

/-- An unrecognised scene: only the error response (R231). -/
def Obligations.UnknownSceneEmitsNothing : Prop :=
  ∀ (s : State) (cmd : Cmd), opField cmd = 8 → 2 < (argField cmd).toNat →
    execute cmd s = .next { s with responses := s.responses ++ [⟨.unknownScene, none⟩] }

/-- Counts of a playback of any three slots with `k` non-empty frames: `6*k` sends, and for `k` at least 1
`1 + 6*(k-1) + 5 + 1` delays that sum to `30 + 6*(k-1)*40 + 5*100 + 50` ms (R193). -/
def Obligations.PlaybackCounts : Prop :=
  ∀ (slots : List (List Duration)) (k : Nat), k = (slots.filter fun f => decide (f ≠ [])).length → 1 ≤ k →
    ((playScene slots).filter fun e => match e with | .send _ _ => true | .delay _ => false).length = 6 * k ∧
    ((playScene slots).filter fun e => match e with | .send _ _ => false | .delay _ => true).length =
      1 + 6 * (k - 1) + 5 + 1 ∧
    ((playScene slots).map fun e => match e with | .send _ _ => 0 | .delay ms => ms).sum =
      30 + 6 * (k - 1) * 40 + 5 * 100 + 50

/-! ## The frame encoder -/

/-- After `EncodeFrame`, whatever `FRM` held: byte 26 is the clamped temperature, byte 28 the fan byte, bytes 19 and
38 the two checksums of the bytes that then stand before them, every other byte the template's (R94, R95, R96, R52). -/
def Obligations.EncodedFrameLayout : Prop :=
  ∀ (s t : State) (m : Mode) (temp : Temp) (fan : Byte), t = encodeFrame m temp fan s →
    t.frm.read 26 = BitVec.ofNat 8 (max 36 (min 64 temp.toNat)) ∧ t.frm.read 28 = fan ∧
    t.frm.read 19 = sum8 ((List.range 19).map t.frm.read) ∧
    t.frm.read 38 = sum8 ((List.range' 20 18).map t.frm.read) ∧
    (∀ i, i < 39 → i ≠ 19 → i ≠ 26 → i ≠ 28 → i ≠ 38 → t.frm.read i = (template s.cfg m).getD i 0) ∧
    (∀ i, 39 ≤ i → t.frm.read i = s.frm.read i)

/-- Running both checksums again changes nothing, and a whole encode depends on `(m, t, f)` and `CFG` alone (R160). -/
def Obligations.ChecksumsAreIdempotent : Prop :=
  (∀ s : State, s.frm.wf = true → checksum2 (checksum1 (checksum2 (checksum1 s))) = checksum2 (checksum1 s)) ∧
  (∀ (s s' : State) (m : Mode) (temp : Temp) (fan : Byte), s.cfg = s'.cfg →
    (encodeFrame m temp fan s).frm.readN 0 39 = (encodeFrame m temp fan s').frm.readN 0 39)

/-- The closed form of checksum 2, and checksum 1 depends on the template alone (R154, R155). -/
def Obligations.ChecksumClosedForms : Prop :=
  ∀ (cfg : Cfg) (m : Mode) (temp : Temp) (fan : Byte), (template cfg m).length = 39 →
    (acFrame cfg m temp fan)[19]? = some (sum8 ((template cfg m).take 19)) ∧
    (acFrame cfg m temp fan)[38]? = some
      (sum8 (((template cfg m).drop 20).take 18) - (template cfg m).getD 26 0 - (template cfg m).getD 28 0 +
        BitVec.ofNat 8 (max 36 (min 64 temp.toNat)) + fan)

/-- Template bytes 19, 26, 28 and 38 never matter: two states whose templates agree elsewhere encode the same frame
(R158). -/
def Obligations.OverwrittenTemplateBytesDoNotMatter : Prop :=
  ∀ (s s' : State) (m : Mode) (temp : Temp) (fan : Byte),
    (∀ i, i < 39 → i ∉ [19, 26, 28, 38] → (template s.cfg m).getD i 0 = (template s'.cfg m).getD i 0) →
    (encodeFrame m temp fan s).frm.readN 0 39 = (encodeFrame m temp fan s').frm.readN 0 39

/-- Every frame the block sends has consistent checksums: what stands in `FRM` after `EncodeFrame`, and after the OFF
copy under a well-formed `CFG`, and the frame that each of the two transmissions sends is the one that stands there
(R157, R159); so the frame as a function of its inputs and `TPL.OFF` have them too. -/
def Obligations.SentFramesHaveConsistentChecksums : Prop :=
  (∀ (s : State) (m : Mode) (temp : Temp) (fan : Byte),
    ChecksumsConsistent ((encodeFrame m temp fan s).frm.readN 0 39)) ∧
  (∀ s : State, s.cfg.WellFormed → ChecksumsConsistent ((copyOff s).frm.readN 0 39)) ∧
  (∀ s : State, s.cfg.WellFormed →
    (∃ t, transmitAC s = .going t ∧ t.trace = s.trace ++ [acSend (t.frm.readN 0 39)] ∧
      ChecksumsConsistent (t.frm.readN 0 39)) ∧
    (∃ t, transmitOff s = .going t ∧ t.trace = s.trace ++ [acSend (t.frm.readN 0 39)] ∧
      ChecksumsConsistent (t.frm.readN 0 39))) ∧
  (∀ (cfg : Cfg) (m : Mode) (temp : Temp) (fan : Byte), ChecksumsConsistent (acFrame cfg m temp fan)) ∧
  (∀ cfg : Cfg, cfg.WellFormed → ChecksumsConsistent (offFrame cfg))

/-! ## The waveform encoder -/

/-- `EncodeWave` in block writes is `EncodeWave` as R170 has it, 632 single appends, overflow included (R170, R180). -/
def Obligations.EncodeWaveIsSingleAppends : Prop :=
  ∀ s : State, s.frm.wf = true → encodeWave s = encodeWaveSingly s

/-- The pulse buffer map, entry by entry (R53; the trailing marks at 322 and 630 are the spec's decision D31). -/
def Obligations.WaveFollowsPulseMap : Prop :=
  ∀ frame : List Byte, frame.length = 39 →
    (wave frame).length = 632 ∧
    (wave frame)[0]? = some 3400 ∧ (wave frame)[1]? = some 1750 ∧
    (wave frame)[322]? = some 430 ∧ (wave frame)[323]? = some 35000 ∧
    (wave frame)[324]? = some 3400 ∧ (wave frame)[325]? = some 1750 ∧
    (wave frame)[630]? = some 430 ∧ (wave frame)[631]? = some 0 ∧
    (∀ i k, i ≤ 19 → k ≤ 7 →
      (wave frame)[2 + 16 * i + 2 * k]? = some 430 ∧
      (wave frame)[3 + 16 * i + 2 * k]? = some (if (frame.getD i 0).getLsbD k then 1300 else 430)) ∧
    (∀ i k, 20 ≤ i → i ≤ 38 → k ≤ 7 →
      (wave frame)[326 + 16 * (i - 20) + 2 * k]? = some 430 ∧
      (wave frame)[327 + 16 * (i - 20) + 2 * k]? = some (if (frame.getD i 0).getLsbD k then 1300 else 430))

/-- The bit coding (R175): one `Append` of a 430 µs mark, then one of a 1300 or 430 µs space. -/
def Obligations.BitIsMarkThenSpace : Prop :=
  ∀ s : State, s.plsLen + 2 ≤ s.cfg.plsCap → ∀ b : Bool,
    ∃ t, emitBitSingly b s = .going t ∧ t.plsLen = s.plsLen + 2 ∧ t.pls.read s.plsLen = 430 ∧
      t.pls.read (s.plsLen + 1) = if b then 1300 else 430

/-- The marks, at even entries, are nonzero; of the spaces, at odd entries, exactly the last is zero (R185). -/
def Obligations.WaveAlternatesMarkAndSpace : Prop :=
  ∀ frame : List Byte, frame.length = 39 → ∀ i, i < 632 →
    (i % 2 = 0 → ∃ d, (wave frame)[i]? = some d ∧ d ≠ 0) ∧
    (i % 2 = 1 → ((wave frame)[i]? = some 0 ↔ i = 631))

/-- IR frame 1 fills 324 entries, IR frame 2 the next 308, together 632, whatever the data (R179). -/
def Obligations.WaveLengthsAreFixed : Prop :=
  ∀ s : State, 632 ≤ s.cfg.plsCap →
    ∃ t1 t2, emitFrame 0 19 35000 (s.setPlsLen 0) = .going t1 ∧ t1.plsLen = 324 ∧
      emitFrame 20 38 0 t1 = .going t2 ∧ t2.plsLen = 324 + 308 ∧ encodeWave s = .going t2

/-- The length of an AC transmission: `314480 + 870 * n1` µs for `n1` 1 bits (R183). -/
def Obligations.WaveDurationCountsOnes : Prop :=
  ∀ frame : List Byte, frame.length = 39 →
    pulseTime (wave frame) = 314480 + 870 * (frame.map byteOnes).sum

/-! ## Frames -/

/-- What the four commands that transmit nothing leave alone: everything but `offDeadline` (the two timer commands),
the trace (the light player) and the responses; every buffer element reads as before. -/
def Obligations.NonTransmittingCommandsFrame : Prop :=
  ∀ (s t : State) (i : Instr),
    ((∃ n, i = .armtimer n) ∨ (∃ a, i = .canceltimer a) ∨ (∃ a, i = .getstatus a) ∨ (∃ x, i = .playlight x)) →
    exec i s = .next t →
    t = { s with offDeadline := t.offDeadline, trace := t.trace, responses := t.responses } ∧
    (((∃ a, i = .getstatus a) ∨ (∃ x, i = .playlight x)) → t.offDeadline = s.offDeadline) ∧
    ((¬ ∃ x, i = .playlight x) → t.trace = s.trace) ∧
    (∀ a, t.frm.read a = s.frm.read a) ∧ (∀ a, t.pls.read a = s.pls.read a)

/-- What the four AC commands that may transmit leave alone, an overflow included: the registers their rules do not
name, `CFG`, the clock and the inputs, and every buffer element outside `FRM[0..38]` and `PLS[0..631]`. -/
def Obligations.TransmittingCommandsFrame : Prop :=
  ∀ (s t : State) (i : Instr), exec i s = .next t →
    ((∃ x, i = .setmode x) →
      t = { s with
            powerOn := t.powerOn, tempX2 := t.tempX2, mode := t.mode, fanHex := t.fanHex, fault := t.fault
            frm := t.frm, pls := t.pls, plsLen := t.plsLen, trace := t.trace, responses := t.responses }) ∧
    ((∃ x, i = .steptemp x) →
      t = { s with
            tempX2 := t.tempX2, fault := t.fault
            frm := t.frm, pls := t.pls, plsLen := t.plsLen, trace := t.trace, responses := t.responses }) ∧
    ((∃ x, i = .setfan x) →
      t = { s with
            fanHex := t.fanHex, fault := t.fault
            frm := t.frm, pls := t.pls, plsLen := t.plsLen, trace := t.trace, responses := t.responses }) ∧
    ((∃ a, i = .poweroff a) →
      t = { s with
            powerOn := t.powerOn, offDeadline := t.offDeadline, fault := t.fault
            frm := t.frm, pls := t.pls, plsLen := t.plsLen, trace := t.trace, responses := t.responses }) ∧
    (∀ a, 39 ≤ a → t.frm.read a = s.frm.read a) ∧ (∀ a, 632 ≤ a → t.pls.read a = s.pls.read a)

/-- The "written by" column of the register table: a command changes `x[0]` only if it is `SETMODE` or `POWEROFF`,
`x[1]` only if `SETMODE` or `STEPTEMP`, `x[2]` only if `SETMODE`, `x[3]` only if `SETMODE` or `SETFAN`, and `SETMODE`
changes `x[3]` only where it is 0 (R20; the register numbers are the spec's decision D7). -/
def Obligations.RegistersAreWrittenByTheirCommands : Prop :=
  ∀ (s t : State) (i : Instr), exec i s = .next t →
    (t.x 0 ≠ s.x 0 → (∃ x, i = .setmode x) ∨ (∃ a, i = .poweroff a)) ∧
    (t.x 1 ≠ s.x 1 → (∃ x, i = .setmode x) ∨ (∃ x, i = .steptemp x)) ∧
    (t.x 2 ≠ s.x 2 → ∃ x, i = .setmode x) ∧
    (t.x 3 ≠ s.x 3 → ((∃ x, i = .setmode x) ∧ s.x 3 = 0) ∨ (∃ x, i = .setfan x))

/-! ## Whole-machine rules -/

/-- `36 <= tempX2 <= 64` after reset and after every step (R22). -/
def Obligations.TemperatureStaysInRange : Prop :=
  (36 ≤ State.reset.tempX2.toNat ∧ State.reset.tempX2.toNat ≤ 64) ∧
  (∀ s t : State, 36 ≤ s.tempX2.toNat → s.tempX2.toNat ≤ 64 → step s = .next t →
    36 ≤ t.tempX2.toNat ∧ t.tempX2.toNat ≤ 64)

/-- The state after reset (R38, R260, R261; `powerOn`, `fanHex`, `offDeadline`, `phase` and `fault` are the spec's
decisions D8, D19, D20; that `CFG` is well formed is R263, by the model's free value of log 2; the empty inputs and
the step number are the model's, log 4, log 5). The first step is a `POLL` that emits and answers nothing. -/
def Obligations.ResetStateIsDefault : Prop :=
  State.reset.powerOn = false ∧ State.reset.fanHex = 0 ∧ State.reset.offDeadline = 0 ∧
  State.reset.phase = .poll ∧ State.reset.fault = false ∧ State.reset.trace = [] ∧ State.reset.responses = [] ∧
  State.reset.mode = State.reset.cfg.resetMode ∧ State.reset.tempX2.toNat = State.reset.cfg.resetTempX2 ∧
  State.reset.cfg.WellFormed ∧ State.reset.arrivals = [] ∧ State.reset.elapse = [] ∧ State.reset.stepNo = 0 ∧
  (∃ t, step State.reset = .next t ∧ t.phase = .service ∧ t.trace = [] ∧ t.responses = [])

/-- The invariant holds at reset (R22, R24, R26, R38; buffer contents at reset are the model's choice, log 7). -/
def Obligations.ResetMeetsInvariant : Prop :=
  Inv State.reset ∧ TraceSound State.reset

/-- Every step keeps the invariant (R22, R24, R26, R30, R31, R32). -/
def Obligations.StepKeepsInvariant : Prop :=
  ∀ s t : State, Inv s → step s = .next t → Inv t

/-- From a state that meets the invariant a step always completes, and no overflow happens (R181). -/
def Obligations.OverflowIsUnreachable : Prop :=
  ∀ s : State, Inv s → ∃ t, step s = .next t ∧ t.fault = false

/-- Every event the block emits is an AC transmission with consistent checksums, a stored light frame or a light
delay (R41, R159, R190). -/
def Obligations.StepKeepsTraceSound : Prop :=
  ∀ s t : State, Inv s → TraceSound s → step s = .next t → TraceSound t

/-- No step writes the constant tables or any other parameter (R33, R56, R60). -/
def Obligations.ConstantsNeverChange : Prop :=
  ∀ s t : State, step s = .next t → t.cfg = s.cfg

/-- Outputs only grow; a `POLL` step answers nothing, and a serviced command gets exactly one response (R62, R87). -/
def Obligations.OneResponsePerServicedCommand : Prop :=
  ∀ s t : State, 632 ≤ s.cfg.plsCap → step s = .next t →
    (∃ es, t.trace = s.trace ++ es) ∧
    ((∃ cmd rest, s.phase = .service ∧ s.arrivals = some cmd :: rest) →
      ∃ r, t.responses = s.responses ++ [r]) ∧
    ((¬ ∃ cmd rest, s.phase = .service ∧ s.arrivals = some cmd :: rest) → t.responses = s.responses)

/-- Who disarms: a step that leaves `offDeadline` 0 where it was not services `CANCELTIMER` or `POWEROFF`, or an
`ARMTIMER` whose sum is 0, or is an expired `TICK`; each of these does leave it 0, and so does reset; the other five
commands never change it (R215; the sentinel of the zero sum is the spec's decision D21, the reset value D8). -/
def Obligations.OnlyListedOperationsDisarm : Prop :=
  (∀ s t : State, step s = .next t → s.offDeadline ≠ 0 → t.offDeadline = 0 →
    (s.phase = .poll ∧ s.expired = true) ∨
    (s.phase = .service ∧ ∃ cmd rest i, s.arrivals = some cmd :: rest ∧ decode cmd = .ok i ∧
      ((∃ a, i = .canceltimer a) ∨ (∃ a, i = .poweroff a) ∨
        (∃ n : Int, i = .armtimer n ∧ 0 < n ∧ (s.clock.toNat + n * 60000) % 2 ^ 32 = 0)))) ∧
  (∀ (s t : State) (a : Arg), exec (.canceltimer a) s = .next t → t.offDeadline = 0) ∧
  (∀ (s t : State) (a : Arg), 632 ≤ s.cfg.plsCap → exec (.poweroff a) s = .next t → t.offDeadline = 0) ∧
  (∀ (s t : State) (n : Int), 0 < n → (s.clock.toNat + n * 60000) % 2 ^ 32 = 0 → exec (.armtimer n) s = .next t →
    t.offDeadline = 0) ∧
  (∀ s t : State, s.phase = .poll → s.expired = true → 632 ≤ s.cfg.plsCap → step s = .next t → t.offDeadline = 0) ∧
  State.reset.offDeadline = 0 ∧
  (∀ (s t : State) (i : Instr), exec i s = .next t →
    ((∃ x, i = .setmode x) ∨ (∃ x, i = .steptemp x) ∨ (∃ x, i = .setfan x) ∨ (∃ a, i = .getstatus a) ∨
      (∃ x, i = .playlight x)) → t.offDeadline = s.offDeadline)

/-- `powerOn` is set only by a recognised `SETMODE` and cleared only by `POWEROFF` and an expired `TICK` (R21; the
last is the spec's decision D10). -/
def Obligations.OnlySetmodeTurnsOn : Prop :=
  ∀ s t : State, step s = .next t →
    (s.powerOn = false → t.powerOn = true →
      s.phase = .service ∧ ∃ cmd rest, s.arrivals = some cmd :: rest ∧
        (decode cmd = .ok (.setmode .heat) ∨ decode cmd = .ok (.setmode .cool))) ∧
    (s.powerOn = true → t.powerOn = false →
      (s.phase = .poll ∧ s.expired = true) ∨
      (s.phase = .service ∧ ∃ cmd rest a, s.arrivals = some cmd :: rest ∧ decode cmd = .ok (.poweroff a)))

/-- Exactly once: an expired `POLL` step sends one OFF frame and disarms, and while no `ARMTIMER` is presented no
later step arms the timer again, so every later `POLL` step emits nothing (R213; the loop is D19). -/
def Obligations.ForcedOffHappensExactlyOnce : Prop :=
  ∀ (s t : State), s.fault = false → s.phase = .poll → 632 ≤ s.cfg.plsCap → s.expired = true →
    (∀ cmd, some cmd ∈ s.arrivals → opField cmd ≠ 5) → step s = .next t →
    t.trace = s.trace ++ [acSend (offFrame s.cfg)] ∧
    (∀ (n : Nat) (u : State), Host.Core.run core n t = .next u →
      u.offDeadline = 0 ∧ (u.phase = .poll → ∃ v, step u = .next v ∧ v.trace = u.trace))

/-- When the deadline has passed and a command is pending the phase decides, whatever the command: in `POLL` the step
is the forced OFF, and the command, serviced by the next step, sees `powerOn` 0 and a disarmed timer, so that a
`STEPTEMP` or a `SETFAN` sends nothing; in `SERVICE` the command is serviced first, on the registers as they stand,
and a `CANCELTIMER` prevents the forced OFF (R221 with case a, R240; the two phases are the spec's decision D19, that
expiry clears `powerOn` is D10; time passes, log 3). -/
def Obligations.PhaseDecidesExpiryAgainstCommand : Prop :=
  (∀ (s : State) (cmd : Cmd) (rest : List (Option Cmd)), s.fault = false → s.phase = .poll → 632 ≤ s.cfg.plsCap →
    s.expired = true → s.arrivals = some cmd :: rest →
    ∃ t, step s = .next t ∧ t.trace = s.trace ++ [acSend (offFrame s.cfg)] ∧ t.powerOn = false ∧ t.offDeadline = 0 ∧
      t.mode = s.mode ∧ t.tempX2 = s.tempX2 ∧ t.fanHex = s.fanHex ∧
      step t = endService (execute cmd { t with arrivals := rest }) ∧
      (opField cmd = 2 ∨ opField cmd = 3 →
        ∃ u, Host.Core.run core 2 s = .next u ∧ u.trace = t.trace ∧ u.powerOn = false ∧ u.offDeadline = 0)) ∧
  (∀ (s : State) (cmd : Cmd) (rest : List (Option Cmd)), s.fault = false → s.phase = .service →
    s.arrivals = some cmd :: rest →
    step s = endService (execute cmd { s with arrivals := rest }) ∧
    (opField cmd = 6 →
      ∃ t, Host.Core.run core 2 s = .next t ∧ t.trace = s.trace ∧ t.powerOn = s.powerOn))

/-- A pulse buffer below 632 entries: every transmission (a recognised `SETMODE`, `STEPTEMP` and `SETFAN` while on,
`POWEROFF`, an expired `TICK`) sets the latch, sends and answers nothing, and the register writes already made stand;
no step is enabled while the latch is set (R234; the latch is the spec's decision D20, and that the overflowing step
answers a next state, keeps its phase, and that the next one stops is the model's, log 9). -/
def Obligations.OverflowLatchesAndHalts : Prop :=
  (∀ s : State, s.fault = true → step s = .fault .bufferOverflow) ∧
  (∀ s : State, s.cfg.plsCap < 632 →
    (∀ (token : ModeToken) (m : Mode) (temp : Temp),
      ((token, m, temp) = (ModeToken.heat, Mode.heat, 55#7) ∨ (token, m, temp) = (ModeToken.cool, Mode.cool, 48#7)) →
      ∃ t, exec (.setmode token) s = .next t ∧ t.fault = true ∧ t.trace = s.trace ∧ t.responses = s.responses ∧
        t.mode = m ∧ t.tempX2 = temp ∧ t.powerOn = true ∧
        t.fanHex = (if s.fanHex = 0 then s.cfg.fanAuto else s.fanHex) ∧ t.offDeadline = s.offDeadline) ∧
    (∀ (token : DirectionToken) (temp : Temp), s.powerOn = true →
      ((token = .positive ∧ temp = BitVec.ofNat 7 (max 36 (min 64 (s.tempX2.toNat + 1)))) ∨
        (token = .negative ∧ temp = BitVec.ofNat 7 (max 36 (min 64 (s.tempX2.toNat - 1))))) →
      ∃ t, exec (.steptemp token) s = .next t ∧ t.fault = true ∧ t.trace = s.trace ∧ t.responses = s.responses ∧
        t.tempX2 = temp) ∧
    (∀ (token : FanToken) (fan : Byte), s.powerOn = true →
      (token, fan) ∈ [(FanToken.auto, s.cfg.fanAuto), (.quiet, s.cfg.fanQuiet), (.lv1, s.cfg.fanLv1),
        (.lv2, s.cfg.fanLv2), (.lv3, s.cfg.fanLv3), (.lv4, s.cfg.fanLv4), (.lv5, s.cfg.fanLv5)] →
      ∃ t, exec (.setfan token) s = .next t ∧ t.fault = true ∧ t.trace = s.trace ∧ t.responses = s.responses ∧
        t.fanHex = fan) ∧
    (∀ arg, ∃ t, exec (.poweroff arg) s = .next t ∧ t.fault = true ∧ t.trace = s.trace ∧
      t.responses = s.responses ∧ t.powerOn = s.powerOn ∧ t.offDeadline = s.offDeadline) ∧
    (s.fault = false → s.phase = .poll → s.expired = true →
      ∃ t, step s = .next t ∧ t.fault = true ∧ t.trace = s.trace ∧ t.responses = s.responses ∧
        t.powerOn = s.powerOn ∧ t.offDeadline = s.offDeadline ∧ t.phase = .poll))

/-- No event ever depends on `RESET_MODE` or `RESET_TEMPX2`: runs from reset under two `CFG`s that differ only there,
on the same inputs, emit the same trace (R39). -/
def Obligations.TraceIndependentOfResetSettings : Prop :=
  (∀ (s s' t : State), AlikeButForUnsentSettings s s' → step s = .next t →
    ∃ t', step s' = .next t' ∧ AlikeButForUnsentSettings t t') ∧
  (∀ (cfg : Cfg) (m : Mode) (temp : Nat) (clock : Time) (elapse : List Nat) (arrivals : List (Option Cmd))
    (n : Nat) (t : State),
    Host.Core.run core n { State.resetWith cfg clock with elapse := elapse, arrivals := arrivals } = .next t →
    ∃ t', Host.Core.run core n
        { State.resetWith { cfg with resetMode := m, resetTempX2 := temp } clock with
          elapse := elapse, arrivals := arrivals } = .next t' ∧ t'.trace = t.trace)

/-- The temperature text of R104 at the values the rule gives. -/
def Obligations.TemperatureTextOfExamples : Prop :=
  temperatureText 48 = "24.0" ∧ temperatureText 55 = "27.5" ∧ temperatureText 36 = "18.0" ∧
  temperatureText 64 = "32.0"

/-- The other two cases of a command serviced after the deadline has passed and before the `TICK`: an `ARMTIMER` with
a positive duration replaces the passed deadline and no OFF frame is sent by that step; a `STEPTEMP` while on sends the
frame of the on state and leaves the deadline, and the next `TICK`, the deadline still passed, sends the OFF frame and
clears `powerOn` (R221 cases b and c; D10, D19; time passes, log 3). -/
def Obligations.CommandServicedBeforeExpiry : Prop :=
  ∀ (s : State) (cmd : Cmd) (rest : List (Option Cmd)), s.fault = false → s.phase = .service →
    s.arrivals = some cmd :: rest → s.expired = true →
    (opField cmd = 5 → 0 < (argField cmd).toInt →
      ∃ t, step s = .next t ∧ t.offDeadline = s.clock + BitVec.ofInt 32 ((argField cmd).toInt * 60000) ∧
        t.trace = s.trace ∧ t.powerOn = s.powerOn) ∧
    (opField cmd = 2 → (argField cmd).toNat ≤ 1 → s.powerOn = true → 632 ≤ s.cfg.plsCap →
      ∃ t, step s = .next t ∧ t.trace = s.trace ++ [acSend (acFrame s.cfg s.mode t.tempX2 s.fanHex)] ∧
        t.powerOn = true ∧ t.offDeadline = s.offDeadline ∧
        (t.expired = true →
          ∃ u, step t = .next u ∧ u.trace = t.trace ++ [acSend (offFrame s.cfg)] ∧ u.powerOn = false ∧
            u.offDeadline = 0))
end

