-- ==== Sys2Proof/Laws/PerInstr.lean ====
section
/-! SUPPORT. Per-instruction statements: the fields of each command's word (30_encoding.md R80). -/

namespace Sys2Proof.Laws.CommandWord

open Sys2Proof

/-- The word of `i` carries its operation code and its operand in the two fields of format `C` (R80). -/
def Statement (i : Instr) : Prop := opField (encode i) = opcodeOf i ∧ argField (encode i) = operandOf i

theorem fields (op : BitVec 4) (arg : Arg) : opField (op ++ arg) = op ∧ argField (op ++ arg) = arg := by
  have key : ∀ k, BitVec.getLsbD (op ++ arg) k = if k < 32 then arg.getLsbD k else op.getLsbD (k - 32) := fun k => by
    rw [BitVec.getLsbD_append]
  constructor
  · apply BitVec.eq_of_getLsbD_eq
    intro k hk
    rw [opField, BitVec.getLsbD_extractLsb', decide_eq_true hk, Bool.true_and]
    refine (key (32 + k)).trans ?_
    rw [if_neg (by omega), Nat.add_sub_cancel_left]
  · apply BitVec.eq_of_getLsbD_eq
    intro k hk
    rw [argField, BitVec.getLsbD_extractLsb', decide_eq_true hk, Bool.true_and, Nat.zero_add]
    refine (key k).trans ?_
    rw [if_pos hk]

theorem setmode (token : ModeToken) : Statement (.setmode token) := fields _ _
theorem steptemp (token : DirectionToken) : Statement (.steptemp token) := fields _ _
theorem setfan (token : FanToken) : Statement (.setfan token) := fields _ _
theorem poweroff (arg : Arg) : Statement (.poweroff arg) := fields _ _
theorem armtimer (minutes : Int) : Statement (.armtimer minutes) := fields _ _
theorem canceltimer (arg : Arg) : Statement (.canceltimer arg) := fields _ _
theorem getstatus (arg : Arg) : Statement (.getstatus arg) := fields _ _
theorem playlight (token : SceneToken) : Statement (.playlight token) := fields _ _

end Sys2Proof.Laws.CommandWord
end

