-- ==== Sys2Proof/Laws/Decode.lean ====
section
/-! SUPPORT. The fields of a command word and what the decoder reads for each operation code. -/

namespace Sys2Proof

theorem opField_encode (i : Instr) : opField (encode i) = opcodeOf i := by
  cases i <;> exact (Laws.CommandWord.fields _ _).1

theorem argField_encode (i : Instr) : argField (encode i) = operandOf i := by
  cases i <;> exact (Laws.CommandWord.fields _ _).2

/-- A word is its two fields (R80). -/
theorem cmd_eq_fields (cmd : Cmd) : (opField cmd ++ argField cmd : Cmd) = cmd := by
  apply BitVec.eq_of_getLsbD_eq
  intro k hk
  have key : BitVec.getLsbD (opField cmd ++ argField cmd) k =
      if k < 32 then (argField cmd).getLsbD k else (opField cmd).getLsbD (k - 32) := by
    rw [BitVec.getLsbD_append]
  refine key.trans ?_
  split
  · rename_i h
    rw [argField, BitVec.getLsbD_extractLsb', decide_eq_true h, Bool.true_and, Nat.zero_add]
  · rename_i h
    rw [opField, BitVec.getLsbD_extractLsb', decide_eq_true (by omega : k - 32 < 4), Bool.true_and,
      show 32 + (k - 32) = k by omega]

theorem decode_setmode (cmd : Cmd) (h : opField cmd = 1) : decode cmd = .ok (.setmode (decodeMode (argField cmd))) := by
  rw [decode, h]; rfl

theorem decode_steptemp (cmd : Cmd) (h : opField cmd = 2) :
    decode cmd = .ok (.steptemp (decodeDirection (argField cmd))) := by
  rw [decode, h]; rfl

theorem decode_setfan (cmd : Cmd) (h : opField cmd = 3) : decode cmd = .ok (.setfan (decodeFan (argField cmd))) := by
  rw [decode, h]; rfl

theorem decode_poweroff (cmd : Cmd) (h : opField cmd = 4) : decode cmd = .ok (.poweroff (argField cmd)) := by
  rw [decode, h]; rfl

theorem decode_armtimer (cmd : Cmd) (h : opField cmd = 5) :
    decode cmd = .ok (.armtimer (Machine.sext32 (argField cmd))) := by
  rw [decode, h]; rfl

theorem decode_canceltimer (cmd : Cmd) (h : opField cmd = 6) : decode cmd = .ok (.canceltimer (argField cmd)) := by
  rw [decode, h]; rfl

theorem decode_getstatus (cmd : Cmd) (h : opField cmd = 7) : decode cmd = .ok (.getstatus (argField cmd)) := by
  rw [decode, h]; rfl

theorem decode_playlight (cmd : Cmd) (h : opField cmd = 8) :
    decode cmd = .ok (.playlight (decodeScene (argField cmd))) := by
  rw [decode, h]; rfl

theorem decode_reserved (cmd : Cmd) (h : (opField cmd).toNat = 0 ∨ 9 ≤ (opField cmd).toNat) :
    decode cmd = .error (.reservedOpcode (opField cmd)) := by
  unfold decode
  split <;> first | omega | rfl

theorem decodeMode_unrecognised (arg : Arg) (h : 1 < arg.toNat) : decodeMode arg = .unrecognised arg := by
  have hk : ∀ k : Nat, k < 2 → arg ≠ BitVec.ofNat 32 k := by
    rintro k hk rfl; simp only [BitVec.toNat_ofNat] at h; omega
  rw [decodeMode, if_neg (hk 0 (by omega)), if_neg (hk 1 (by omega))]

theorem decodeDirection_unrecognised (arg : Arg) (h : 1 < arg.toNat) :
    decodeDirection arg = .unrecognised arg := by
  have hk : ∀ k : Nat, k < 2 → arg ≠ BitVec.ofNat 32 k := by
    rintro k hk rfl; simp only [BitVec.toNat_ofNat] at h; omega
  rw [decodeDirection, if_neg (hk 0 (by omega)), if_neg (hk 1 (by omega))]

theorem decodeFan_unrecognised (arg : Arg) (h : 6 < arg.toNat) : decodeFan arg = .unrecognised arg := by
  have hk : ∀ k : Nat, k < 7 → arg ≠ BitVec.ofNat 32 k := by
    rintro k hk rfl; simp only [BitVec.toNat_ofNat] at h; omega
  rw [decodeFan, if_neg (hk 0 (by omega)), if_neg (hk 1 (by omega)), if_neg (hk 2 (by omega)),
    if_neg (hk 3 (by omega)), if_neg (hk 4 (by omega)), if_neg (hk 5 (by omega)), if_neg (hk 6 (by omega))]

theorem decodeScene_unrecognised (arg : Arg) (h : 2 < arg.toNat) : decodeScene arg = .unrecognised arg := by
  have hk : ∀ k : Nat, k < 3 → arg ≠ BitVec.ofNat 32 k := by
    rintro k hk rfl; simp only [BitVec.toNat_ofNat] at h; omega
  rw [decodeScene, if_neg (hk 0 (by omega)), if_neg (hk 1 (by omega)), if_neg (hk 2 (by omega))]

namespace Machine

/-- Executing a word that decodes. -/
theorem execute_ok (cmd : Cmd) (i : Instr) (s : State) (h : decode cmd = .ok i) : execute cmd s = exec i s := by
  rw [execute, h]

/-- Executing a reserved word (30 R90, 60 R233). -/
theorem execute_error (cmd : Cmd) (e : DecodeError) (s : State) (h : decode cmd = .error e) :
    execute cmd s = .next (raiseError .unknownCommand s) := by
  rw [execute, h]

end Machine

end Sys2Proof
end

