-- ==== Sys2Proof/Laws/Memory.lean ====
section
/-! SUPPORT. The laws of the buffer spaces: read after write, the canonical form, block reads. -/

namespace Sys2Proof.Machine

variable {w : Nat}

@[simp] theorem Memory.read_nil (a : Nat) : Memory.read ([] : Memory w) a = Memory.unlisted w := rfl

@[simp] theorem Memory.listed_nil (a : Nat) : Memory.listed a ([] : List (BitVec w)) = [] := rfl

@[simp] theorem Memory.writeN_nil (m : Memory w) (a : Nat) : m.writeN a [] = m := rfl

theorem Memory.mem_listed {l : List (BitVec w)} {a : Nat} {c : Nat × BitVec w}
    (h : c ∈ Memory.listed a l) : a ≤ c.1 ∧ c.1 < a + l.length ∧ c.2 ≠ Memory.unlisted w := by
  induction l generalizing a with
  | nil => simp at h
  | cons v vs ih =>
    unfold Memory.listed at h
    have step : c ∈ Memory.listed (a + 1) vs → a ≤ c.1 ∧ c.1 < a + (v :: vs).length ∧ c.2 ≠ Memory.unlisted w := by
      intro h'
      obtain ⟨h1, h2, h3⟩ := ih h'
      exact ⟨by omega, by simp only [List.length_cons]; omega, h3⟩
    split at h
    · exact step h
    · rename_i hv
      rcases List.mem_cons.mp h with rfl | h'
      · exact ⟨le_refl _, by simp, hv⟩
      · exact step h'

theorem Memory.listed_append (l l' : List (BitVec w)) (a : Nat) :
    Memory.listed a (l ++ l') = Memory.listed a l ++ Memory.listed (a + l.length) l' := by
  induction l generalizing a with
  | nil => simp
  | cons v vs ih =>
    simp only [List.cons_append, Memory.listed, List.length_cons]
    rw [ih, show a + 1 + vs.length = a + (vs.length + 1) by omega]
    split <;> simp

theorem Memory.read_append (m m' : Memory w) (a : Nat) (h : ∀ c ∈ m, c.1 ≠ a) :
    Memory.read (m ++ m') a = Memory.read m' a := by
  induction m with
  | nil => rfl
  | cons c rest ih =>
    have hc : a ≠ c.1 := fun e => h c (by simp) e.symm
    simp only [List.cons_append, Memory.read, hc, if_false]
    exact ih fun c' hc' => h c' (by simp [hc'])

theorem Memory.read_append_left (m m' : Memory w) (a : Nat) (h : ∀ c ∈ m', c.1 ≠ a) :
    Memory.read (m ++ m') a = Memory.read m a := by
  induction m with
  | nil => simpa using Memory.read_append m' [] a h
  | cons c rest ih => simp only [List.cons_append, Memory.read, ih]

theorem Memory.read_filter (m : Memory w) (p : Nat → Bool) (a : Nat) (h : p a = true) :
    Memory.read (m.filter fun c => p c.1) a = Memory.read m a := by
  induction m with
  | nil => rfl
  | cons c rest ih =>
    by_cases hc : a = c.1
    · subst hc; simp [List.filter, h, Memory.read]
    · simp only [Memory.read, if_neg hc, List.filter_cons]
      split
      · simp only [Memory.read, if_neg hc, ih]
      · exact ih

theorem Memory.read_listed (l : List (BitVec w)) (a k : Nat) (h : k < l.length) :
    Memory.read (Memory.listed a l) (a + k) = l[k] := by
  induction l generalizing a k with
  | nil => simp at h
  | cons v vs ih =>
    cases k with
    | zero =>
      simp only [Memory.listed]
      split
      · rename_i hv
        have := Memory.read_append (Memory.listed (a + 1) vs) [] a
          (fun c hc => by have := (Memory.mem_listed hc).1; omega)
        simpa [hv] using this
      · simp [Memory.read]
    | succ k =>
      have := ih (a + 1) k (by simpa using h)
      rw [show a + 1 + k = a + (k + 1) by omega] at this
      simp only [Memory.listed, List.getElem_cons_succ]
      split
      · exact this
      · simp only [Memory.read, show ¬ a + (k + 1) = a by omega, if_false]; exact this

/-- What a write stores: element `k` of the written list at index `a + k`. -/
theorem Memory.read_writeN_inside (m : Memory w) (a : Nat) (l : List (BitVec w)) (k : Nat) (h : k < l.length) :
    (m.writeN a l).read (a + k) = l[k] := by
  cases l with
  | nil => simp at h
  | cons v vs =>
    rw [Memory.writeN, Memory.read_append, Memory.read_append_left]
    · exact Memory.read_listed _ _ _ h
    · intro c hc
      have := of_decide_eq_true (List.mem_filter.mp hc).2
      omega
    · intro c hc
      have := of_decide_eq_true (List.mem_filter.mp hc).2
      omega

/-- What a write leaves alone: every element outside the written range. -/
theorem Memory.read_writeN_outside (m : Memory w) (a : Nat) (l : List (BitVec w)) (i : Nat)
    (h : i < a ∨ a + l.length ≤ i) : (m.writeN a l).read i = m.read i := by
  cases l with
  | nil => rfl
  | cons v vs =>
    have hl : ∀ c ∈ Memory.listed a (v :: vs), c.1 ≠ i := fun c hc => by
      have := Memory.mem_listed hc; omega
    rw [Memory.writeN]
    rcases h with h | h
    · rw [Memory.read_append_left _ _ _ (by
        intro c hc
        rcases List.mem_append.mp hc with hc | hc
        · exact hl c hc
        · have := of_decide_eq_true (List.mem_filter.mp hc).2
          omega)]
      exact Memory.read_filter m (fun n => decide (n < a)) i (by simpa using h)
    · rw [Memory.read_append _ _ _ (by
        intro c hc
        have := of_decide_eq_true (List.mem_filter.mp hc).2
        omega), Memory.read_append _ _ _ hl]
      exact Memory.read_filter m (fun n => decide (a + (v :: vs).length ≤ n)) i (by simpa using h)

theorem Memory.wf_iff (m : Memory w) :
    m.wf = true ↔ m.Pairwise (fun c d => c.1 < d.1) ∧ ∀ c ∈ m, c.2 ≠ Memory.unlisted w := by
  induction m with
  | nil => simp [Memory.wf]
  | cons c rest ih =>
    obtain ⟨a, v⟩ := c
    simp only [Memory.wf, Bool.and_eq_true, decide_eq_true_eq, List.all_eq_true, ih, List.pairwise_cons,
      List.mem_cons, forall_eq_or_imp]
    tauto

theorem Memory.listed_wf (a : Nat) (l : List (BitVec w)) : (Memory.listed a l).wf = true := by
  rw [Memory.wf_iff]
  refine ⟨?_, fun c hc => (Memory.mem_listed hc).2.2⟩
  induction l generalizing a with
  | nil => simp
  | cons v vs ih =>
    unfold Memory.listed
    split
    · exact ih _
    · refine List.pairwise_cons.mpr ⟨fun c hc => ?_, ih _⟩
      have := (Memory.mem_listed hc).1
      simp only
      omega

/-- Every write keeps the canonical form. -/
theorem Memory.writeN_wf (m : Memory w) (a : Nat) (l : List (BitVec w)) (h : m.wf = true) :
    (m.writeN a l).wf = true := by
  cases l with
  | nil => exact h
  | cons v vs =>
    obtain ⟨hp, hv⟩ := (Memory.wf_iff m).mp h
    obtain ⟨lp, -⟩ := (Memory.wf_iff _).mp (Memory.listed_wf a (v :: vs))
    rw [Memory.wf_iff, Memory.writeN]
    refine ⟨?_, ?_⟩
    · refine List.pairwise_append.mpr ⟨hp.filter _, List.pairwise_append.mpr ⟨lp, hp.filter _, ?_⟩, ?_⟩
      · intro c hc d hd
        have h1 := (Memory.mem_listed hc).2.1
        have h2 := of_decide_eq_true (List.mem_filter.mp hd).2
        omega
      · intro c hc d hd
        have h1 := of_decide_eq_true (List.mem_filter.mp hc).2
        rcases List.mem_append.mp hd with hd | hd
        · have := (Memory.mem_listed hd).1; omega
        · have := of_decide_eq_true (List.mem_filter.mp hd).2; omega
    · intro c hc
      rcases List.mem_append.mp hc with hc | hc
      · exact hv c (List.mem_of_mem_filter hc)
      · rcases List.mem_append.mp hc with hc | hc
        · exact (Memory.mem_listed hc).2.2
        · exact hv c (List.mem_of_mem_filter hc)

theorem Memory.within_iff (n : Nat) (m : Memory w) : m.within n = true ↔ ∀ c ∈ m, c.1 < n := by
  simp only [Memory.within, List.all_eq_true, decide_eq_true_eq]

/-- A write inside the space's extent keeps every listed index inside it. -/
theorem Memory.writeN_within (n : Nat) (m : Memory w) (a : Nat) (l : List (BitVec w))
    (h : m.within n = true) (hl : a + l.length ≤ n) : (m.writeN a l).within n = true := by
  rw [Memory.within_iff] at h ⊢
  cases l with
  | nil => exact h
  | cons v vs =>
    intro c hc
    rcases List.mem_append.mp hc with hc | hc
    · exact h c (List.mem_of_mem_filter hc)
    · rcases List.mem_append.mp hc with hc | hc
      · have := (Memory.mem_listed hc).2.1; omega
      · exact h c (List.mem_of_mem_filter hc)

@[simp] theorem Memory.length_readFrom (n : Nat) (m : Memory w) (a : Nat) : (Memory.readFrom n m a).length = n := by
  induction n generalizing m a with
  | zero => rfl
  | succ n ih =>
    cases m with
    | nil => simp [Memory.readFrom, ih]
    | cons c rest => unfold Memory.readFrom; split <;> simp [ih]

@[simp] theorem Memory.length_readN (m : Memory w) (a n : Nat) : (m.readN a n).length = n := by
  simp [Memory.readN]

theorem Memory.readFrom_skip (n : Nat) (m : Memory w) (a : Nat) (h : ∀ c ∈ m, a < c.1) :
    Memory.readFrom (n + 1) m a = Memory.unlisted w :: Memory.readFrom n m (a + 1) := by
  cases m with
  | nil => rfl
  | cons c rest =>
    have : a ≠ c.1 := by have := h c (by simp); omega
    simp [Memory.readFrom, this]

theorem Memory.readFrom_prefix (l : List (BitVec w)) (m : Memory w) (a n : Nat) (hn : n ≤ l.length)
    (h : ∀ c ∈ m, a + n ≤ c.1) : Memory.readFrom n (Memory.listed a l ++ m) a = l.take n := by
  induction n generalizing l a with
  | zero => simp [Memory.readFrom]
  | succ n ih =>
    cases l with
    | nil => simp at hn
    | cons v vs =>
      have tail := ih vs (a + 1) (by simpa using hn) (fun c hc => by have := h c hc; omega)
      simp only [Memory.listed]
      split
      · rename_i hv
        rw [Memory.readFrom_skip, tail, hv]
        · rfl
        · intro c hc
          rcases List.mem_append.mp hc with hc | hc
          · have := (Memory.mem_listed hc).1; omega
          · have := h c hc; omega
      · simp only [List.cons_append, Memory.readFrom, if_true, tail, List.take_succ_cons]

/-- A block read, element by element, of a buffer in canonical form. -/
theorem Memory.readN_eq_map (m : Memory w) (a n : Nat) (h : m.wf = true) :
    m.readN a n = (List.range n).map fun k => m.read (a + k) := by
  have key : ∀ (n : Nat) (m : Memory w) (a : Nat), m.Pairwise (fun c d => c.1 < d.1) → (∀ c ∈ m, a ≤ c.1) →
      Memory.readFrom n m a = (List.range n).map fun k => m.read (a + k) := by
    intro n
    induction n with
    | zero => intro m a _ _; simp [Memory.readFrom]
    | succ n ih =>
      intro m a hp hb
      rw [List.range_succ_eq_map, List.map_cons, List.map_map]
      cases m with
      | nil =>
        rw [Memory.readFrom_skip _ _ _ (by simp), ih [] (a + 1) List.Pairwise.nil (by simp)]
        simp [Function.comp_def]
      | cons c rest =>
        obtain ⟨b, x⟩ := c
        obtain ⟨h1, h2⟩ := List.pairwise_cons.mp hp
        have hb1 : a ≤ b := hb _ List.mem_cons_self
        by_cases hab : a = b
        · subst hab
          rw [Memory.readFrom, if_pos rfl, ih rest (a + 1) h2 (fun c hc => by have := h1 c hc; simp only at this; omega)]
          simp only [Memory.read, Nat.add_zero, if_true, Function.comp_def, List.cons.injEq, true_and]
          apply List.map_congr_left
          intro k _
          rw [if_neg (by omega), show a + 1 + k = a + k.succ by omega]
        · rw [Memory.readFrom, if_neg hab, ih _ (a + 1) hp (by
            intro c hc
            rcases List.mem_cons.mp hc with rfl | hc
            · simp only; omega
            · have := h1 c hc; simp only at this; omega)]
          have hread : Memory.read ((b, x) :: rest) (a + 0) = Memory.unlisted w := by
            rw [← List.append_nil ((b, x) :: rest), Memory.read_append _ [] _ (by
              intro c hc
              rcases List.mem_cons.mp hc with rfl | hc
              · simp only; omega
              · have := h1 c hc; simp only at this; omega)]
            rfl
          rw [hread]
          simp only [Function.comp_def, List.cons.injEq, true_and]
          apply List.map_congr_left
          intro k _
          rw [show a + 1 + k = a + k.succ by omega]
  obtain ⟨hp, -⟩ := (Memory.wf_iff m).mp h
  rw [Memory.readN, key _ _ _ (hp.filter _) (fun c hc => of_decide_eq_true (List.mem_filter.mp hc).2)]
  apply List.map_congr_left
  intro k _
  exact Memory.read_filter m (fun n => decide (a ≤ n)) (a + k) (by simp)

/-- A block written over the start of a buffer whose first `l.length` elements are `l`. -/
theorem Memory.writeN_listed (l vs : List (BitVec w)) (m : Memory w) (a : Nat)
    (hl : a + vs.length ≤ l.length) (h : ∀ c ∈ m, l.length ≤ c.1) :
    Memory.writeN (Memory.listed 0 l ++ m) a vs =
      Memory.listed 0 (l.take a ++ (vs ++ l.drop (a + vs.length))) ++ m := by
  cases vs with
  | nil => simp
  | cons v vs =>
    generalize hvs : v :: vs = us at *
    have hsplit : l = l.take a ++ ((l.drop a).take us.length ++ l.drop (a + us.length)) := by
      rw [← List.drop_drop, List.take_append_drop, List.take_append_drop]
    have hta : (l.take a).length = a := by simp; omega
    have htu : ((l.drop a).take us.length).length = us.length := by simp; omega
    have hA : ∀ c ∈ Memory.listed 0 (l.take a), c.1 < a := fun c hc => by
      have := (Memory.mem_listed hc).2.1; omega
    have hB : ∀ c ∈ Memory.listed (0 + a) ((l.drop a).take us.length), a ≤ c.1 ∧ c.1 < a + us.length := fun c hc => by
      have := Memory.mem_listed hc; omega
    have hC : ∀ c ∈ Memory.listed (0 + a + us.length) (l.drop (a + us.length)), a + us.length ≤ c.1 := fun c hc => by
      have := (Memory.mem_listed hc).1; omega
    have hlow : (Memory.listed 0 l ++ m).filter (fun c => decide (c.1 < a)) = Memory.listed 0 (l.take a) := by
      conv_lhs => rw [hsplit]
      rw [Memory.listed_append, Memory.listed_append, hta, htu, List.filter_append, List.filter_append,
        List.filter_append, List.filter_eq_self.mpr (fun c hc => by simpa using hA c hc),
        List.filter_eq_nil_iff.mpr (fun c hc => by have := hB c hc; simp; omega),
        List.filter_eq_nil_iff.mpr (fun c hc => by have := hC c hc; simp; omega),
        List.filter_eq_nil_iff.mpr (fun c hc => by have := h c hc; simp; omega)]
      simp
    have hhigh : (Memory.listed 0 l ++ m).filter (fun c => decide (a + us.length ≤ c.1)) =
        Memory.listed (0 + a + us.length) (l.drop (a + us.length)) ++ m := by
      conv_lhs => rw [hsplit]
      rw [Memory.listed_append, Memory.listed_append, hta, htu, List.filter_append, List.filter_append,
        List.filter_append, List.filter_eq_nil_iff.mpr (fun c hc => by have := hA c hc; simp; omega),
        List.filter_eq_nil_iff.mpr (fun c hc => by have := hB c hc; simp; omega),
        List.filter_eq_self.mpr (fun c hc => by simpa using hC c hc),
        List.filter_eq_self.mpr (fun c hc => by have := h c hc; simp; omega)]
      simp
    rw [← hvs, Memory.writeN, hvs, hlow, hhigh, Memory.listed_append, Memory.listed_append, hta]
    simp

/-- A block read from a buffer whose first `l.length` elements are `l`. -/
theorem Memory.readN_listed (l : List (BitVec w)) (m : Memory w) (a n : Nat)
    (hl : a + n ≤ l.length) (h : ∀ c ∈ m, l.length ≤ c.1) :
    Memory.readN (Memory.listed 0 l ++ m) a n = (l.drop a).take n := by
  have hta : (l.take a).length = a := by simp; omega
  have hsplit : Memory.listed 0 l = Memory.listed 0 (l.take a) ++ Memory.listed a (l.drop a) := by
    conv_lhs => rw [← List.take_append_drop a l]
    rw [Memory.listed_append, hta, Nat.zero_add]
  rw [Memory.readN, hsplit, List.filter_append, List.filter_append,
    List.filter_eq_nil_iff.mpr (fun c hc => by have := (Memory.mem_listed hc).2.1; simp; omega),
    List.filter_eq_self.mpr (fun c hc => by have := (Memory.mem_listed hc).1; simpa using this),
    List.filter_eq_self.mpr (fun c hc => by have := h c hc; simp; omega), List.nil_append]
  exact Memory.readFrom_prefix _ _ _ _ (by simp; omega) (fun c hc => by have := h c hc; omega)

end Sys2Proof.Machine
end

