-- ==== Sys2Proof/Laws/State.lean ====
section
/-! SUPPORT. One lemma per field per update: what each named update of the state leaves in each field. -/

namespace Sys2Proof.Machine

variable (s : State)

@[simp] theorem State.setPowerOn_powerOn (b : Bool) : (s.setPowerOn b).powerOn = b := rfl
@[simp] theorem State.setPowerOn_tempX2 (b : Bool) : (s.setPowerOn b).tempX2 = s.tempX2 := rfl
@[simp] theorem State.setPowerOn_mode (b : Bool) : (s.setPowerOn b).mode = s.mode := rfl
@[simp] theorem State.setPowerOn_fanHex (b : Bool) : (s.setPowerOn b).fanHex = s.fanHex := rfl
@[simp] theorem State.setPowerOn_offDeadline (b : Bool) : (s.setPowerOn b).offDeadline = s.offDeadline := rfl
@[simp] theorem State.setPowerOn_phase (b : Bool) : (s.setPowerOn b).phase = s.phase := rfl
@[simp] theorem State.setPowerOn_fault (b : Bool) : (s.setPowerOn b).fault = s.fault := rfl
@[simp] theorem State.setPowerOn_frm (b : Bool) : (s.setPowerOn b).frm = s.frm := rfl
@[simp] theorem State.setPowerOn_pls (b : Bool) : (s.setPowerOn b).pls = s.pls := rfl
@[simp] theorem State.setPowerOn_plsLen (b : Bool) : (s.setPowerOn b).plsLen = s.plsLen := rfl
@[simp] theorem State.setPowerOn_cfg (b : Bool) : (s.setPowerOn b).cfg = s.cfg := rfl
@[simp] theorem State.setPowerOn_clock (b : Bool) : (s.setPowerOn b).clock = s.clock := rfl
@[simp] theorem State.setPowerOn_elapse (b : Bool) : (s.setPowerOn b).elapse = s.elapse := rfl
@[simp] theorem State.setPowerOn_stepNo (b : Bool) : (s.setPowerOn b).stepNo = s.stepNo := rfl
@[simp] theorem State.setPowerOn_arrivals (b : Bool) : (s.setPowerOn b).arrivals = s.arrivals := rfl
@[simp] theorem State.setPowerOn_trace (b : Bool) : (s.setPowerOn b).trace = s.trace := rfl
@[simp] theorem State.setPowerOn_responses (b : Bool) : (s.setPowerOn b).responses = s.responses := rfl

@[simp] theorem State.setTempX2_powerOn (t : Temp) : (s.setTempX2 t).powerOn = s.powerOn := rfl
@[simp] theorem State.setTempX2_tempX2 (t : Temp) : (s.setTempX2 t).tempX2 = t := rfl
@[simp] theorem State.setTempX2_mode (t : Temp) : (s.setTempX2 t).mode = s.mode := rfl
@[simp] theorem State.setTempX2_fanHex (t : Temp) : (s.setTempX2 t).fanHex = s.fanHex := rfl
@[simp] theorem State.setTempX2_offDeadline (t : Temp) : (s.setTempX2 t).offDeadline = s.offDeadline := rfl
@[simp] theorem State.setTempX2_phase (t : Temp) : (s.setTempX2 t).phase = s.phase := rfl
@[simp] theorem State.setTempX2_fault (t : Temp) : (s.setTempX2 t).fault = s.fault := rfl
@[simp] theorem State.setTempX2_frm (t : Temp) : (s.setTempX2 t).frm = s.frm := rfl
@[simp] theorem State.setTempX2_pls (t : Temp) : (s.setTempX2 t).pls = s.pls := rfl
@[simp] theorem State.setTempX2_plsLen (t : Temp) : (s.setTempX2 t).plsLen = s.plsLen := rfl
@[simp] theorem State.setTempX2_cfg (t : Temp) : (s.setTempX2 t).cfg = s.cfg := rfl
@[simp] theorem State.setTempX2_clock (t : Temp) : (s.setTempX2 t).clock = s.clock := rfl
@[simp] theorem State.setTempX2_elapse (t : Temp) : (s.setTempX2 t).elapse = s.elapse := rfl
@[simp] theorem State.setTempX2_stepNo (t : Temp) : (s.setTempX2 t).stepNo = s.stepNo := rfl
@[simp] theorem State.setTempX2_arrivals (t : Temp) : (s.setTempX2 t).arrivals = s.arrivals := rfl
@[simp] theorem State.setTempX2_trace (t : Temp) : (s.setTempX2 t).trace = s.trace := rfl
@[simp] theorem State.setTempX2_responses (t : Temp) : (s.setTempX2 t).responses = s.responses := rfl

@[simp] theorem State.setMode_powerOn (m : Mode) : (s.setMode m).powerOn = s.powerOn := rfl
@[simp] theorem State.setMode_tempX2 (m : Mode) : (s.setMode m).tempX2 = s.tempX2 := rfl
@[simp] theorem State.setMode_mode (m : Mode) : (s.setMode m).mode = m := rfl
@[simp] theorem State.setMode_fanHex (m : Mode) : (s.setMode m).fanHex = s.fanHex := rfl
@[simp] theorem State.setMode_offDeadline (m : Mode) : (s.setMode m).offDeadline = s.offDeadline := rfl
@[simp] theorem State.setMode_phase (m : Mode) : (s.setMode m).phase = s.phase := rfl
@[simp] theorem State.setMode_fault (m : Mode) : (s.setMode m).fault = s.fault := rfl
@[simp] theorem State.setMode_frm (m : Mode) : (s.setMode m).frm = s.frm := rfl
@[simp] theorem State.setMode_pls (m : Mode) : (s.setMode m).pls = s.pls := rfl
@[simp] theorem State.setMode_plsLen (m : Mode) : (s.setMode m).plsLen = s.plsLen := rfl
@[simp] theorem State.setMode_cfg (m : Mode) : (s.setMode m).cfg = s.cfg := rfl
@[simp] theorem State.setMode_clock (m : Mode) : (s.setMode m).clock = s.clock := rfl
@[simp] theorem State.setMode_elapse (m : Mode) : (s.setMode m).elapse = s.elapse := rfl
@[simp] theorem State.setMode_stepNo (m : Mode) : (s.setMode m).stepNo = s.stepNo := rfl
@[simp] theorem State.setMode_arrivals (m : Mode) : (s.setMode m).arrivals = s.arrivals := rfl
@[simp] theorem State.setMode_trace (m : Mode) : (s.setMode m).trace = s.trace := rfl
@[simp] theorem State.setMode_responses (m : Mode) : (s.setMode m).responses = s.responses := rfl

@[simp] theorem State.setFanHex_powerOn (f : Byte) : (s.setFanHex f).powerOn = s.powerOn := rfl
@[simp] theorem State.setFanHex_tempX2 (f : Byte) : (s.setFanHex f).tempX2 = s.tempX2 := rfl
@[simp] theorem State.setFanHex_mode (f : Byte) : (s.setFanHex f).mode = s.mode := rfl
@[simp] theorem State.setFanHex_fanHex (f : Byte) : (s.setFanHex f).fanHex = f := rfl
@[simp] theorem State.setFanHex_offDeadline (f : Byte) : (s.setFanHex f).offDeadline = s.offDeadline := rfl
@[simp] theorem State.setFanHex_phase (f : Byte) : (s.setFanHex f).phase = s.phase := rfl
@[simp] theorem State.setFanHex_fault (f : Byte) : (s.setFanHex f).fault = s.fault := rfl
@[simp] theorem State.setFanHex_frm (f : Byte) : (s.setFanHex f).frm = s.frm := rfl
@[simp] theorem State.setFanHex_pls (f : Byte) : (s.setFanHex f).pls = s.pls := rfl
@[simp] theorem State.setFanHex_plsLen (f : Byte) : (s.setFanHex f).plsLen = s.plsLen := rfl
@[simp] theorem State.setFanHex_cfg (f : Byte) : (s.setFanHex f).cfg = s.cfg := rfl
@[simp] theorem State.setFanHex_clock (f : Byte) : (s.setFanHex f).clock = s.clock := rfl
@[simp] theorem State.setFanHex_elapse (f : Byte) : (s.setFanHex f).elapse = s.elapse := rfl
@[simp] theorem State.setFanHex_stepNo (f : Byte) : (s.setFanHex f).stepNo = s.stepNo := rfl
@[simp] theorem State.setFanHex_arrivals (f : Byte) : (s.setFanHex f).arrivals = s.arrivals := rfl
@[simp] theorem State.setFanHex_trace (f : Byte) : (s.setFanHex f).trace = s.trace := rfl
@[simp] theorem State.setFanHex_responses (f : Byte) : (s.setFanHex f).responses = s.responses := rfl

@[simp] theorem State.setOffDeadline_powerOn (d : Time) : (s.setOffDeadline d).powerOn = s.powerOn := rfl
@[simp] theorem State.setOffDeadline_tempX2 (d : Time) : (s.setOffDeadline d).tempX2 = s.tempX2 := rfl
@[simp] theorem State.setOffDeadline_mode (d : Time) : (s.setOffDeadline d).mode = s.mode := rfl
@[simp] theorem State.setOffDeadline_fanHex (d : Time) : (s.setOffDeadline d).fanHex = s.fanHex := rfl
@[simp] theorem State.setOffDeadline_offDeadline (d : Time) : (s.setOffDeadline d).offDeadline = d := rfl
@[simp] theorem State.setOffDeadline_phase (d : Time) : (s.setOffDeadline d).phase = s.phase := rfl
@[simp] theorem State.setOffDeadline_fault (d : Time) : (s.setOffDeadline d).fault = s.fault := rfl
@[simp] theorem State.setOffDeadline_frm (d : Time) : (s.setOffDeadline d).frm = s.frm := rfl
@[simp] theorem State.setOffDeadline_pls (d : Time) : (s.setOffDeadline d).pls = s.pls := rfl
@[simp] theorem State.setOffDeadline_plsLen (d : Time) : (s.setOffDeadline d).plsLen = s.plsLen := rfl
@[simp] theorem State.setOffDeadline_cfg (d : Time) : (s.setOffDeadline d).cfg = s.cfg := rfl
@[simp] theorem State.setOffDeadline_clock (d : Time) : (s.setOffDeadline d).clock = s.clock := rfl
@[simp] theorem State.setOffDeadline_elapse (d : Time) : (s.setOffDeadline d).elapse = s.elapse := rfl
@[simp] theorem State.setOffDeadline_stepNo (d : Time) : (s.setOffDeadline d).stepNo = s.stepNo := rfl
@[simp] theorem State.setOffDeadline_arrivals (d : Time) : (s.setOffDeadline d).arrivals = s.arrivals := rfl
@[simp] theorem State.setOffDeadline_trace (d : Time) : (s.setOffDeadline d).trace = s.trace := rfl
@[simp] theorem State.setOffDeadline_responses (d : Time) : (s.setOffDeadline d).responses = s.responses := rfl

@[simp] theorem State.setPhase_powerOn (p : Phase) : (s.setPhase p).powerOn = s.powerOn := rfl
@[simp] theorem State.setPhase_tempX2 (p : Phase) : (s.setPhase p).tempX2 = s.tempX2 := rfl
@[simp] theorem State.setPhase_mode (p : Phase) : (s.setPhase p).mode = s.mode := rfl
@[simp] theorem State.setPhase_fanHex (p : Phase) : (s.setPhase p).fanHex = s.fanHex := rfl
@[simp] theorem State.setPhase_offDeadline (p : Phase) : (s.setPhase p).offDeadline = s.offDeadline := rfl
@[simp] theorem State.setPhase_phase (p : Phase) : (s.setPhase p).phase = p := rfl
@[simp] theorem State.setPhase_fault (p : Phase) : (s.setPhase p).fault = s.fault := rfl
@[simp] theorem State.setPhase_frm (p : Phase) : (s.setPhase p).frm = s.frm := rfl
@[simp] theorem State.setPhase_pls (p : Phase) : (s.setPhase p).pls = s.pls := rfl
@[simp] theorem State.setPhase_plsLen (p : Phase) : (s.setPhase p).plsLen = s.plsLen := rfl
@[simp] theorem State.setPhase_cfg (p : Phase) : (s.setPhase p).cfg = s.cfg := rfl
@[simp] theorem State.setPhase_clock (p : Phase) : (s.setPhase p).clock = s.clock := rfl
@[simp] theorem State.setPhase_elapse (p : Phase) : (s.setPhase p).elapse = s.elapse := rfl
@[simp] theorem State.setPhase_stepNo (p : Phase) : (s.setPhase p).stepNo = s.stepNo := rfl
@[simp] theorem State.setPhase_arrivals (p : Phase) : (s.setPhase p).arrivals = s.arrivals := rfl
@[simp] theorem State.setPhase_trace (p : Phase) : (s.setPhase p).trace = s.trace := rfl
@[simp] theorem State.setPhase_responses (p : Phase) : (s.setPhase p).responses = s.responses := rfl

@[simp] theorem State.setFault_powerOn : (s.setFault).powerOn = s.powerOn := rfl
@[simp] theorem State.setFault_tempX2 : (s.setFault).tempX2 = s.tempX2 := rfl
@[simp] theorem State.setFault_mode : (s.setFault).mode = s.mode := rfl
@[simp] theorem State.setFault_fanHex : (s.setFault).fanHex = s.fanHex := rfl
@[simp] theorem State.setFault_offDeadline : (s.setFault).offDeadline = s.offDeadline := rfl
@[simp] theorem State.setFault_phase : (s.setFault).phase = s.phase := rfl
@[simp] theorem State.setFault_fault : (s.setFault).fault = true := rfl
@[simp] theorem State.setFault_frm : (s.setFault).frm = s.frm := rfl
@[simp] theorem State.setFault_pls : (s.setFault).pls = s.pls := rfl
@[simp] theorem State.setFault_plsLen : (s.setFault).plsLen = s.plsLen := rfl
@[simp] theorem State.setFault_cfg : (s.setFault).cfg = s.cfg := rfl
@[simp] theorem State.setFault_clock : (s.setFault).clock = s.clock := rfl
@[simp] theorem State.setFault_elapse : (s.setFault).elapse = s.elapse := rfl
@[simp] theorem State.setFault_stepNo : (s.setFault).stepNo = s.stepNo := rfl
@[simp] theorem State.setFault_arrivals : (s.setFault).arrivals = s.arrivals := rfl
@[simp] theorem State.setFault_trace : (s.setFault).trace = s.trace := rfl
@[simp] theorem State.setFault_responses : (s.setFault).responses = s.responses := rfl

@[simp] theorem State.writeFrm_powerOn (a : Nat) (l : List Byte) : (s.writeFrm a l).powerOn = s.powerOn := rfl
@[simp] theorem State.writeFrm_tempX2 (a : Nat) (l : List Byte) : (s.writeFrm a l).tempX2 = s.tempX2 := rfl
@[simp] theorem State.writeFrm_mode (a : Nat) (l : List Byte) : (s.writeFrm a l).mode = s.mode := rfl
@[simp] theorem State.writeFrm_fanHex (a : Nat) (l : List Byte) : (s.writeFrm a l).fanHex = s.fanHex := rfl
@[simp] theorem State.writeFrm_offDeadline (a : Nat) (l : List Byte) : (s.writeFrm a l).offDeadline = s.offDeadline := rfl
@[simp] theorem State.writeFrm_phase (a : Nat) (l : List Byte) : (s.writeFrm a l).phase = s.phase := rfl
@[simp] theorem State.writeFrm_fault (a : Nat) (l : List Byte) : (s.writeFrm a l).fault = s.fault := rfl
@[simp] theorem State.writeFrm_frm (a : Nat) (l : List Byte) : (s.writeFrm a l).frm = s.frm.writeN a l := rfl
@[simp] theorem State.writeFrm_pls (a : Nat) (l : List Byte) : (s.writeFrm a l).pls = s.pls := rfl
@[simp] theorem State.writeFrm_plsLen (a : Nat) (l : List Byte) : (s.writeFrm a l).plsLen = s.plsLen := rfl
@[simp] theorem State.writeFrm_cfg (a : Nat) (l : List Byte) : (s.writeFrm a l).cfg = s.cfg := rfl
@[simp] theorem State.writeFrm_clock (a : Nat) (l : List Byte) : (s.writeFrm a l).clock = s.clock := rfl
@[simp] theorem State.writeFrm_elapse (a : Nat) (l : List Byte) : (s.writeFrm a l).elapse = s.elapse := rfl
@[simp] theorem State.writeFrm_stepNo (a : Nat) (l : List Byte) : (s.writeFrm a l).stepNo = s.stepNo := rfl
@[simp] theorem State.writeFrm_arrivals (a : Nat) (l : List Byte) : (s.writeFrm a l).arrivals = s.arrivals := rfl
@[simp] theorem State.writeFrm_trace (a : Nat) (l : List Byte) : (s.writeFrm a l).trace = s.trace := rfl
@[simp] theorem State.writeFrm_responses (a : Nat) (l : List Byte) : (s.writeFrm a l).responses = s.responses := rfl

@[simp] theorem State.writePls_powerOn (a : Nat) (l : List Duration) : (s.writePls a l).powerOn = s.powerOn := rfl
@[simp] theorem State.writePls_tempX2 (a : Nat) (l : List Duration) : (s.writePls a l).tempX2 = s.tempX2 := rfl
@[simp] theorem State.writePls_mode (a : Nat) (l : List Duration) : (s.writePls a l).mode = s.mode := rfl
@[simp] theorem State.writePls_fanHex (a : Nat) (l : List Duration) : (s.writePls a l).fanHex = s.fanHex := rfl
@[simp] theorem State.writePls_offDeadline (a : Nat) (l : List Duration) : (s.writePls a l).offDeadline = s.offDeadline := rfl
@[simp] theorem State.writePls_phase (a : Nat) (l : List Duration) : (s.writePls a l).phase = s.phase := rfl
@[simp] theorem State.writePls_fault (a : Nat) (l : List Duration) : (s.writePls a l).fault = s.fault := rfl
@[simp] theorem State.writePls_frm (a : Nat) (l : List Duration) : (s.writePls a l).frm = s.frm := rfl
@[simp] theorem State.writePls_pls (a : Nat) (l : List Duration) : (s.writePls a l).pls = s.pls.writeN a l := rfl
@[simp] theorem State.writePls_plsLen (a : Nat) (l : List Duration) : (s.writePls a l).plsLen = s.plsLen := rfl
@[simp] theorem State.writePls_cfg (a : Nat) (l : List Duration) : (s.writePls a l).cfg = s.cfg := rfl
@[simp] theorem State.writePls_clock (a : Nat) (l : List Duration) : (s.writePls a l).clock = s.clock := rfl
@[simp] theorem State.writePls_elapse (a : Nat) (l : List Duration) : (s.writePls a l).elapse = s.elapse := rfl
@[simp] theorem State.writePls_stepNo (a : Nat) (l : List Duration) : (s.writePls a l).stepNo = s.stepNo := rfl
@[simp] theorem State.writePls_arrivals (a : Nat) (l : List Duration) : (s.writePls a l).arrivals = s.arrivals := rfl
@[simp] theorem State.writePls_trace (a : Nat) (l : List Duration) : (s.writePls a l).trace = s.trace := rfl
@[simp] theorem State.writePls_responses (a : Nat) (l : List Duration) : (s.writePls a l).responses = s.responses := rfl

@[simp] theorem State.setPlsLen_powerOn (n : Nat) : (s.setPlsLen n).powerOn = s.powerOn := rfl
@[simp] theorem State.setPlsLen_tempX2 (n : Nat) : (s.setPlsLen n).tempX2 = s.tempX2 := rfl
@[simp] theorem State.setPlsLen_mode (n : Nat) : (s.setPlsLen n).mode = s.mode := rfl
@[simp] theorem State.setPlsLen_fanHex (n : Nat) : (s.setPlsLen n).fanHex = s.fanHex := rfl
@[simp] theorem State.setPlsLen_offDeadline (n : Nat) : (s.setPlsLen n).offDeadline = s.offDeadline := rfl
@[simp] theorem State.setPlsLen_phase (n : Nat) : (s.setPlsLen n).phase = s.phase := rfl
@[simp] theorem State.setPlsLen_fault (n : Nat) : (s.setPlsLen n).fault = s.fault := rfl
@[simp] theorem State.setPlsLen_frm (n : Nat) : (s.setPlsLen n).frm = s.frm := rfl
@[simp] theorem State.setPlsLen_pls (n : Nat) : (s.setPlsLen n).pls = s.pls := rfl
@[simp] theorem State.setPlsLen_plsLen (n : Nat) : (s.setPlsLen n).plsLen = n := rfl
@[simp] theorem State.setPlsLen_cfg (n : Nat) : (s.setPlsLen n).cfg = s.cfg := rfl
@[simp] theorem State.setPlsLen_clock (n : Nat) : (s.setPlsLen n).clock = s.clock := rfl
@[simp] theorem State.setPlsLen_elapse (n : Nat) : (s.setPlsLen n).elapse = s.elapse := rfl
@[simp] theorem State.setPlsLen_stepNo (n : Nat) : (s.setPlsLen n).stepNo = s.stepNo := rfl
@[simp] theorem State.setPlsLen_arrivals (n : Nat) : (s.setPlsLen n).arrivals = s.arrivals := rfl
@[simp] theorem State.setPlsLen_trace (n : Nat) : (s.setPlsLen n).trace = s.trace := rfl
@[simp] theorem State.setPlsLen_responses (n : Nat) : (s.setPlsLen n).responses = s.responses := rfl

@[simp] theorem State.setArrivals_powerOn (l : List (Option Cmd)) : (s.setArrivals l).powerOn = s.powerOn := rfl
@[simp] theorem State.setArrivals_tempX2 (l : List (Option Cmd)) : (s.setArrivals l).tempX2 = s.tempX2 := rfl
@[simp] theorem State.setArrivals_mode (l : List (Option Cmd)) : (s.setArrivals l).mode = s.mode := rfl
@[simp] theorem State.setArrivals_fanHex (l : List (Option Cmd)) : (s.setArrivals l).fanHex = s.fanHex := rfl
@[simp] theorem State.setArrivals_offDeadline (l : List (Option Cmd)) : (s.setArrivals l).offDeadline = s.offDeadline := rfl
@[simp] theorem State.setArrivals_phase (l : List (Option Cmd)) : (s.setArrivals l).phase = s.phase := rfl
@[simp] theorem State.setArrivals_fault (l : List (Option Cmd)) : (s.setArrivals l).fault = s.fault := rfl
@[simp] theorem State.setArrivals_frm (l : List (Option Cmd)) : (s.setArrivals l).frm = s.frm := rfl
@[simp] theorem State.setArrivals_pls (l : List (Option Cmd)) : (s.setArrivals l).pls = s.pls := rfl
@[simp] theorem State.setArrivals_plsLen (l : List (Option Cmd)) : (s.setArrivals l).plsLen = s.plsLen := rfl
@[simp] theorem State.setArrivals_cfg (l : List (Option Cmd)) : (s.setArrivals l).cfg = s.cfg := rfl
@[simp] theorem State.setArrivals_clock (l : List (Option Cmd)) : (s.setArrivals l).clock = s.clock := rfl
@[simp] theorem State.setArrivals_elapse (l : List (Option Cmd)) : (s.setArrivals l).elapse = s.elapse := rfl
@[simp] theorem State.setArrivals_stepNo (l : List (Option Cmd)) : (s.setArrivals l).stepNo = s.stepNo := rfl
@[simp] theorem State.setArrivals_arrivals (l : List (Option Cmd)) : (s.setArrivals l).arrivals = l := rfl
@[simp] theorem State.setArrivals_trace (l : List (Option Cmd)) : (s.setArrivals l).trace = s.trace := rfl
@[simp] theorem State.setArrivals_responses (l : List (Option Cmd)) : (s.setArrivals l).responses = s.responses := rfl

@[simp] theorem State.emit_powerOn (e : Event) : (s.emit e).powerOn = s.powerOn := rfl
@[simp] theorem State.emit_tempX2 (e : Event) : (s.emit e).tempX2 = s.tempX2 := rfl
@[simp] theorem State.emit_mode (e : Event) : (s.emit e).mode = s.mode := rfl
@[simp] theorem State.emit_fanHex (e : Event) : (s.emit e).fanHex = s.fanHex := rfl
@[simp] theorem State.emit_offDeadline (e : Event) : (s.emit e).offDeadline = s.offDeadline := rfl
@[simp] theorem State.emit_phase (e : Event) : (s.emit e).phase = s.phase := rfl
@[simp] theorem State.emit_fault (e : Event) : (s.emit e).fault = s.fault := rfl
@[simp] theorem State.emit_frm (e : Event) : (s.emit e).frm = s.frm := rfl
@[simp] theorem State.emit_pls (e : Event) : (s.emit e).pls = s.pls := rfl
@[simp] theorem State.emit_plsLen (e : Event) : (s.emit e).plsLen = s.plsLen := rfl
@[simp] theorem State.emit_cfg (e : Event) : (s.emit e).cfg = s.cfg := rfl
@[simp] theorem State.emit_clock (e : Event) : (s.emit e).clock = s.clock := rfl
@[simp] theorem State.emit_elapse (e : Event) : (s.emit e).elapse = s.elapse := rfl
@[simp] theorem State.emit_stepNo (e : Event) : (s.emit e).stepNo = s.stepNo := rfl
@[simp] theorem State.emit_arrivals (e : Event) : (s.emit e).arrivals = s.arrivals := rfl
@[simp] theorem State.emit_trace (e : Event) : (s.emit e).trace = s.trace ++ [e] := rfl
@[simp] theorem State.emit_responses (e : Event) : (s.emit e).responses = s.responses := rfl

@[simp] theorem State.emitAll_powerOn (l : List Event) : (s.emitAll l).powerOn = s.powerOn := rfl
@[simp] theorem State.emitAll_tempX2 (l : List Event) : (s.emitAll l).tempX2 = s.tempX2 := rfl
@[simp] theorem State.emitAll_mode (l : List Event) : (s.emitAll l).mode = s.mode := rfl
@[simp] theorem State.emitAll_fanHex (l : List Event) : (s.emitAll l).fanHex = s.fanHex := rfl
@[simp] theorem State.emitAll_offDeadline (l : List Event) : (s.emitAll l).offDeadline = s.offDeadline := rfl
@[simp] theorem State.emitAll_phase (l : List Event) : (s.emitAll l).phase = s.phase := rfl
@[simp] theorem State.emitAll_fault (l : List Event) : (s.emitAll l).fault = s.fault := rfl
@[simp] theorem State.emitAll_frm (l : List Event) : (s.emitAll l).frm = s.frm := rfl
@[simp] theorem State.emitAll_pls (l : List Event) : (s.emitAll l).pls = s.pls := rfl
@[simp] theorem State.emitAll_plsLen (l : List Event) : (s.emitAll l).plsLen = s.plsLen := rfl
@[simp] theorem State.emitAll_cfg (l : List Event) : (s.emitAll l).cfg = s.cfg := rfl
@[simp] theorem State.emitAll_clock (l : List Event) : (s.emitAll l).clock = s.clock := rfl
@[simp] theorem State.emitAll_elapse (l : List Event) : (s.emitAll l).elapse = s.elapse := rfl
@[simp] theorem State.emitAll_stepNo (l : List Event) : (s.emitAll l).stepNo = s.stepNo := rfl
@[simp] theorem State.emitAll_arrivals (l : List Event) : (s.emitAll l).arrivals = s.arrivals := rfl
@[simp] theorem State.emitAll_trace (l : List Event) : (s.emitAll l).trace = s.trace ++ l := rfl
@[simp] theorem State.emitAll_responses (l : List Event) : (s.emitAll l).responses = s.responses := rfl

@[simp] theorem State.respond_powerOn (c : ResponseCode) (p : Option StatusWord) : (s.respond c p).powerOn = s.powerOn := rfl
@[simp] theorem State.respond_tempX2 (c : ResponseCode) (p : Option StatusWord) : (s.respond c p).tempX2 = s.tempX2 := rfl
@[simp] theorem State.respond_mode (c : ResponseCode) (p : Option StatusWord) : (s.respond c p).mode = s.mode := rfl
@[simp] theorem State.respond_fanHex (c : ResponseCode) (p : Option StatusWord) : (s.respond c p).fanHex = s.fanHex := rfl
@[simp] theorem State.respond_offDeadline (c : ResponseCode) (p : Option StatusWord) : (s.respond c p).offDeadline = s.offDeadline := rfl
@[simp] theorem State.respond_phase (c : ResponseCode) (p : Option StatusWord) : (s.respond c p).phase = s.phase := rfl
@[simp] theorem State.respond_fault (c : ResponseCode) (p : Option StatusWord) : (s.respond c p).fault = s.fault := rfl
@[simp] theorem State.respond_frm (c : ResponseCode) (p : Option StatusWord) : (s.respond c p).frm = s.frm := rfl
@[simp] theorem State.respond_pls (c : ResponseCode) (p : Option StatusWord) : (s.respond c p).pls = s.pls := rfl
@[simp] theorem State.respond_plsLen (c : ResponseCode) (p : Option StatusWord) : (s.respond c p).plsLen = s.plsLen := rfl
@[simp] theorem State.respond_cfg (c : ResponseCode) (p : Option StatusWord) : (s.respond c p).cfg = s.cfg := rfl
@[simp] theorem State.respond_clock (c : ResponseCode) (p : Option StatusWord) : (s.respond c p).clock = s.clock := rfl
@[simp] theorem State.respond_elapse (c : ResponseCode) (p : Option StatusWord) : (s.respond c p).elapse = s.elapse := rfl
@[simp] theorem State.respond_stepNo (c : ResponseCode) (p : Option StatusWord) : (s.respond c p).stepNo = s.stepNo := rfl
@[simp] theorem State.respond_arrivals (c : ResponseCode) (p : Option StatusWord) : (s.respond c p).arrivals = s.arrivals := rfl
@[simp] theorem State.respond_trace (c : ResponseCode) (p : Option StatusWord) : (s.respond c p).trace = s.trace := rfl
@[simp] theorem State.respond_responses (c : ResponseCode) (p : Option StatusWord) : (s.respond c p).responses = s.responses ++ [⟨c, p⟩] := rfl

@[simp] theorem State.respondOk_powerOn : (s.respondOk).powerOn = s.powerOn := rfl
@[simp] theorem State.respondOk_tempX2 : (s.respondOk).tempX2 = s.tempX2 := rfl
@[simp] theorem State.respondOk_mode : (s.respondOk).mode = s.mode := rfl
@[simp] theorem State.respondOk_fanHex : (s.respondOk).fanHex = s.fanHex := rfl
@[simp] theorem State.respondOk_offDeadline : (s.respondOk).offDeadline = s.offDeadline := rfl
@[simp] theorem State.respondOk_phase : (s.respondOk).phase = s.phase := rfl
@[simp] theorem State.respondOk_fault : (s.respondOk).fault = s.fault := rfl
@[simp] theorem State.respondOk_frm : (s.respondOk).frm = s.frm := rfl
@[simp] theorem State.respondOk_pls : (s.respondOk).pls = s.pls := rfl
@[simp] theorem State.respondOk_plsLen : (s.respondOk).plsLen = s.plsLen := rfl
@[simp] theorem State.respondOk_cfg : (s.respondOk).cfg = s.cfg := rfl
@[simp] theorem State.respondOk_clock : (s.respondOk).clock = s.clock := rfl
@[simp] theorem State.respondOk_elapse : (s.respondOk).elapse = s.elapse := rfl
@[simp] theorem State.respondOk_stepNo : (s.respondOk).stepNo = s.stepNo := rfl
@[simp] theorem State.respondOk_arrivals : (s.respondOk).arrivals = s.arrivals := rfl
@[simp] theorem State.respondOk_trace : (s.respondOk).trace = s.trace := rfl
@[simp] theorem State.respondOk_responses : (s.respondOk).responses = s.responses ++ [⟨.ok, none⟩] := rfl

@[simp] theorem State.passTime_powerOn : (s.passTime).powerOn = s.powerOn := rfl
@[simp] theorem State.passTime_tempX2 : (s.passTime).tempX2 = s.tempX2 := rfl
@[simp] theorem State.passTime_mode : (s.passTime).mode = s.mode := rfl
@[simp] theorem State.passTime_fanHex : (s.passTime).fanHex = s.fanHex := rfl
@[simp] theorem State.passTime_offDeadline : (s.passTime).offDeadline = s.offDeadline := rfl
@[simp] theorem State.passTime_phase : (s.passTime).phase = s.phase := rfl
@[simp] theorem State.passTime_fault : (s.passTime).fault = s.fault := rfl
@[simp] theorem State.passTime_frm : (s.passTime).frm = s.frm := rfl
@[simp] theorem State.passTime_pls : (s.passTime).pls = s.pls := rfl
@[simp] theorem State.passTime_plsLen : (s.passTime).plsLen = s.plsLen := rfl
@[simp] theorem State.passTime_cfg : (s.passTime).cfg = s.cfg := rfl
@[simp] theorem State.passTime_clock : (s.passTime).clock = s.clock + BitVec.ofNat 32 s.clockDelta := rfl
@[simp] theorem State.passTime_elapse : (s.passTime).elapse = s.elapse.tail := rfl
@[simp] theorem State.passTime_stepNo : (s.passTime).stepNo = s.stepNo + 1 := rfl
@[simp] theorem State.passTime_arrivals : (s.passTime).arrivals = s.arrivals := rfl
@[simp] theorem State.passTime_trace : (s.passTime).trace = s.trace := rfl
@[simp] theorem State.passTime_responses : (s.passTime).responses = s.responses := rfl

end Sys2Proof.Machine
end

