-- ==== Sys2Proof/Laws/Frame.lean ====
section
/-! SUPPORT. What the frame encoder leaves in the frame buffer. -/

namespace Sys2Proof.Machine

@[simp] theorem length_romRead (rom : List Byte) (a n : Nat) : (romRead rom a n).length = n := by
  simp [romRead]

theorem romRead_eq_self (rom : List Byte) (n : Nat) (h : rom.length = n) : romRead rom 0 n = rom := by
  subst h
  apply List.ext_getElem
  · simp
  · intro i h1 h2
    simp [romRead, h2]

/-- A whole-buffer write makes the first 39 bytes the written list, whatever `FRM` held. -/
theorem writeN_whole (m : Memory 8) (l : List Byte) (h : l.length = 39) :
    m.writeN 0 l = Memory.listed 0 l ++ m.filter (fun c => decide (39 ≤ c.1)) := by
  cases l with
  | nil => simp at h
  | cons v vs => simp [Memory.writeN, h]

/-- The entries a frame encode never touches: those past the 39 bytes. -/
def frmBeyond (m : Memory 8) : Memory 8 := m.filter fun c => decide (39 ≤ c.1)

theorem frmBeyond_le (m : Memory 8) : ∀ c ∈ frmBeyond m, 39 ≤ c.1 := fun c hc => by
  simpa using (List.mem_filter.mp hc).2

/-- A one-byte write inside the 39 bytes. -/
theorem writeN_byte (l : List Byte) (m : Memory 8) (a : Nat) (v : Byte) (ha : a < l.length)
    (h : ∀ c ∈ m, l.length ≤ c.1) :
    Memory.writeN (Memory.listed 0 l ++ m) a [v] = Memory.listed 0 (l.set a v) ++ m := by
  rw [Memory.writeN_listed l [v] m a (by simpa using ha) h, List.set_eq_take_append_cons_drop, if_pos ha]
  rfl

/-- The frame as the chain of patches of R151 to R155. -/
def framePatched (cfg : Cfg) (m : Mode) (t : Temp) (f : Byte) : List Byte :=
  let b := ((romRead (template cfg m) 0 39).set 26 (tempByte t)).set 28 f
  let b1 := b.set 19 (sum8 (b.take 19))
  b1.set 38 (sum8 ((b1.drop 20).take 18))

theorem framePatched_eq_acFrame (cfg : Cfg) (m : Mode) (t : Temp) (f : Byte) :
    framePatched cfg m t f = acFrame cfg m t f := by
  have hb : ((romRead (template cfg m) 0 39).set 26 (tempByte t)).set 28 f =
      (List.range' 0 39).map (payloadByte cfg m t f) := by
    apply List.ext_getElem
    · simp
    · intro i h1 h2
      simp only [List.getElem_set, romRead, List.getElem_map, List.getElem_range, List.getElem_range',
        payloadByte, Nat.zero_add, Nat.one_mul, eq_comm (b := i)]
      split
      · rename_i h; subst h; simp
      · rfl
  have hb1 : ∀ v : Byte, ((((List.range' 0 39).map (payloadByte cfg m t f)).set 19 v).drop 20).take 18 =
      (List.range' 20 18).map (payloadByte cfg m t f) := by
    intro v
    apply List.ext_getElem
    · simp
    · intro i h1 h2
      rw [List.getElem_take, List.getElem_drop, List.getElem_set, if_neg (by omega)]
      simp
  have h19 : ((List.range' 0 39).map (payloadByte cfg m t f)).take 19 =
      (List.range' 0 19).map (payloadByte cfg m t f) := by
    rw [← List.map_take]; rfl
  unfold framePatched
  simp only [hb, hb1, h19]
  apply List.ext_getElem
  · simp [acFrame]
  · intro i h1 h2
    simp only [acFrame, List.getElem_set, List.getElem_map, List.getElem_range, List.getElem_range', Nat.zero_add,
      Nat.one_mul, eq_comm (b := i)]
    by_cases h : i = 19
    · subst h; simp
    · simp only [if_neg h]

@[simp] theorem length_acFrame (cfg : Cfg) (m : Mode) (t : Temp) (f : Byte) : (acFrame cfg m t f).length = 39 := by
  simp [acFrame]

/-- What `EncodeFrame` does: it writes the frame of 20_memory.md R52 over the 39 bytes and nothing else. -/
theorem encodeFrame_eq (m : Mode) (t : Temp) (f : Byte) (s : State) :
    encodeFrame m t f s =
      { s with frm := Memory.listed 0 (acFrame s.cfg m t f) ++ frmBeyond s.frm } := by
  have hJ := frmBeyond_le s.frm
  have e0 := writeN_whole s.frm (romRead (template s.cfg m) 0 39) (by simp)
  rw [← framePatched_eq_acFrame]
  simp only [encodeFrame, checksum2, checksum1, patchFan, patchTemp, copyTemplate, State.writeFrm]
  rw [e0, show (s.frm.filter fun c => decide (39 ≤ c.1)) = frmBeyond s.frm from rfl,
    writeN_byte _ _ 26 _ (by simp) (by simpa using hJ), writeN_byte _ _ 28 _ (by simp) (by simpa using hJ),
    Memory.readN_listed _ _ 0 19 (by simp) (by simpa using hJ), List.drop_zero,
    writeN_byte _ _ 19 _ (by simp) (by simpa using hJ),
    Memory.readN_listed _ _ 20 18 (by simp) (by simpa using hJ),
    writeN_byte _ _ 38 _ (by simp) (by simpa using hJ)]
  rfl

/-- What the OFF copy does. -/
theorem copyOff_eq (s : State) :
    copyOff s = { s with frm := Memory.listed 0 (romRead s.cfg.tplOff 0 39) ++ frmBeyond s.frm } := by
  simp only [copyOff, State.writeFrm]
  rw [writeN_whole _ _ (by simp)]
  rfl

end Sys2Proof.Machine
end

