-- ==== Sys2Proof/Laws/Wave.lean ====
section
/-! SUPPORT. What the waveform encoder leaves in the pulse buffer. -/

namespace Sys2Proof.Machine

@[simp] theorem Run.andThen_going (s : State) (f : State → Run) : (Run.going s).andThen f = f s := rfl

@[simp] theorem Run.andThen_abandoned (s : State) (f : State → Run) :
    (Run.abandoned s).andThen f = .abandoned s := rfl

@[simp] theorem Run.finish_going (s : State) (f : State → State) : (Run.going s).finish f = f s := rfl

@[simp] theorem Run.finish_abandoned (s : State) (f : State → State) : (Run.abandoned s).finish f = s := rfl

theorem Run.andThen_assoc (r : Run) (f g : State → Run) :
    (r.andThen f).andThen g = r.andThen fun s => (f s).andThen g := by
  cases r <;> rfl

@[simp] theorem forEach_nil {α : Type} (f : α → State → Run) (s : State) : forEach [] f s = .going s := rfl

@[simp] theorem forEach_cons {α : Type} (x : α) (xs : List α) (f : α → State → Run) (s : State) :
    forEach (x :: xs) f s = (f x s).andThen (forEach xs f) := rfl

theorem forEach_append {α : Type} (l l' : List α) (f : α → State → Run) (s : State) :
    forEach (l ++ l') f s = (forEach l f s).andThen (forEach l' f) := by
  induction l generalizing s with
  | nil => rfl
  | cons x xs ih =>
    simp only [List.cons_append, forEach_cons, Run.andThen_assoc]
    congr 1
    funext s1
    exact ih s1

/-- A block write is a write of its first element and then of the others. -/
theorem Memory.writeN_cons {w : Nat} (m : Memory w) (a : Nat) (v : BitVec w) (vs : List (BitVec w)) :
    m.writeN a (v :: vs) = (m.writeN a [v]).writeN (a + 1) vs := by
  cases vs with
  | nil => rfl
  | cons u us =>
    have hL : ∀ p : Nat × BitVec w → Bool, (∀ c, a ≤ c.1 → c.1 < a + 1 → p c = true) →
        (Memory.listed a [v]).filter p = Memory.listed a [v] := fun p hp =>
      List.filter_eq_self.mpr fun c hc => hp c (Memory.mem_listed hc).1 (by simpa using (Memory.mem_listed hc).2.1)
    have hN : ∀ p : Nat × BitVec w → Bool, (∀ c, a ≤ c.1 → c.1 < a + 1 → p c = false) →
        (Memory.listed a [v]).filter p = [] := fun p hp =>
      List.filter_eq_nil_iff.mpr fun c hc => by
        simp [hp c (Memory.mem_listed hc).1 (by simpa using (Memory.mem_listed hc).2.1)]
    have hlow : (m.writeN a [v]).filter (fun c => decide (c.1 < a + 1)) =
        m.filter (fun c => decide (c.1 < a)) ++ Memory.listed a [v] := by
      have h1 : (m.filter fun c => decide (c.1 < a)).filter (fun c => decide (c.1 < a + 1)) =
          m.filter fun c => decide (c.1 < a) :=
        List.filter_eq_self.mpr fun c hc => by
          have := of_decide_eq_true (List.mem_filter.mp hc).2; simp; omega
      have h2 : (m.filter fun c => decide (a + [v].length ≤ c.1)).filter (fun c => decide (c.1 < a + 1)) = [] :=
        List.filter_eq_nil_iff.mpr fun c hc => by
          have := of_decide_eq_true (List.mem_filter.mp hc).2; simp at this ⊢; omega
      rw [Memory.writeN, List.filter_append, List.filter_append, h1, h2, hL _ (fun c _ h => by simpa using h),
        List.append_nil]
    have hhigh : (m.writeN a [v]).filter (fun c => decide (a + 1 + (u :: us).length ≤ c.1)) =
        m.filter (fun c => decide (a + (v :: u :: us).length ≤ c.1)) := by
      have h1 : (m.filter fun c => decide (c.1 < a)).filter
          (fun c => decide (a + 1 + (u :: us).length ≤ c.1)) = [] :=
        List.filter_eq_nil_iff.mpr fun c hc => by
          have := of_decide_eq_true (List.mem_filter.mp hc).2; simp; omega
      have h2 : (m.filter fun c => decide (a + [v].length ≤ c.1)).filter
          (fun c => decide (a + 1 + (u :: us).length ≤ c.1)) =
          m.filter fun c => decide (a + (v :: u :: us).length ≤ c.1) := by
        rw [List.filter_filter]
        refine List.filter_congr fun c _ => ?_
        rw [← Bool.decide_and]
        refine decide_eq_decide.mpr ?_
        simp only [List.length_cons, List.length_nil]
        omega
      rw [Memory.writeN, List.filter_append, List.filter_append, h1, h2,
        hN _ (fun c _ h => by simp; omega), List.nil_append, List.nil_append]
    rw [Memory.writeN, Memory.writeN, hlow, hhigh,
      show v :: u :: us = [v] ++ (u :: us) from rfl, Memory.listed_append, List.append_assoc, List.append_assoc]
    rfl

/-- `appendAll` where the entries fit. -/
theorem appendAll_fits (l : List Duration) (s : State) (h : l.length ≤ s.cfg.plsCap - s.plsLen) :
    appendAll l s = .going { s with pls := s.pls.writeN s.plsLen l, plsLen := s.plsLen + l.length } := by
  rw [appendAll, if_pos h]; rfl

/-- `appendAll` where they do not fit: the entries that fit are written, then the overflow. -/
theorem appendAll_overflows (l : List Duration) (s : State) (h : ¬ l.length ≤ s.cfg.plsCap - s.plsLen) :
    appendAll l s = .abandoned
      { s with
        pls := s.pls.writeN s.plsLen (l.take (s.cfg.plsCap - s.plsLen))
        plsLen := s.plsLen + (s.cfg.plsCap - s.plsLen)
        fault := true } := by
  rw [appendAll, if_neg h]; rfl

theorem appendAll_nil (s : State) : appendAll [] s = .going s := rfl

/-- `appendAll` is `Append` of each entry in order (R180). -/
theorem appendAll_eq_forEach (l : List Duration) (s : State) : appendAll l s = forEach l append s := by
  induction l generalizing s with
  | nil => rfl
  | cons d ds ih =>
    have hd : append d s = if s.cfg.plsCap ≤ s.plsLen then raiseBufferOverflow s
      else .going ((s.writePls s.plsLen [d]).setPlsLen (s.plsLen + 1)) := rfl
    rw [forEach_cons, hd]
    split
    · rename_i hfull
      have h0 : s.cfg.plsCap - s.plsLen = 0 := by omega
      rw [appendAll_overflows _ _ (by simp [h0])]
      simp [h0, raiseBufferOverflow, State.setFault]
    · rename_i hroom
      have hk : s.cfg.plsCap - s.plsLen = s.cfg.plsCap - (s.plsLen + 1) + 1 := by omega
      rw [Run.andThen_going, ← ih]
      by_cases hfit : ds.length ≤ s.cfg.plsCap - (s.plsLen + 1)
      · rw [appendAll_fits ds _ hfit, appendAll_fits (d :: ds) _ (by simp only [List.length_cons]; omega)]
        simp only [State.writePls, State.setPlsLen, Memory.writeN_cons _ _ d ds, List.length_cons,
          Run.going.injEq, State.mk.injEq, and_true, true_and]
        omega
      · rw [appendAll_overflows ds _ hfit, appendAll_overflows (d :: ds) _ (by simp only [List.length_cons]; omega),
          hk, List.take_succ_cons, Memory.writeN_cons _ _ d]
        simp only [State.writePls, State.setPlsLen, Run.abandoned.injEq, State.mk.injEq, and_true, true_and]
        omega

@[simp] theorem length_byteBits (v : Byte) : (byteBits v).length = 16 := rfl

@[simp] theorem length_bits (l : List Byte) : (bits l).length = 16 * l.length := by
  induction l with
  | nil => rfl
  | cons v vs ih => simp only [bits, List.flatMap_cons, List.length_append, length_byteBits, List.length_cons] at *; omega

@[simp] theorem length_framePulses (l : List Byte) (tail : Duration) :
    (framePulses l tail).length = 16 * l.length + 4 := by
  simp [framePulses]

theorem length_wave (frame : List Byte) (h : frame.length = 39) : (wave frame).length = 632 := by
  simp [wave, h]

/-- The entries an encode never touches: those past the 632 pulses. -/
def plsBeyond (m : Memory 16) : Memory 16 := m.filter fun c => decide (632 ≤ c.1)

/-- A block written right after the first `l.length` elements. -/
theorem Memory.writeN_after {w : Nat} (l vs : List (BitVec w)) (m : Memory w) (hv : vs ≠ [])
    (h : ∀ c ∈ m, l.length ≤ c.1) :
    Memory.writeN (Memory.listed 0 l ++ m) l.length vs =
      Memory.listed 0 (l ++ vs) ++ m.filter fun c => decide (l.length + vs.length ≤ c.1) := by
  cases vs with
  | nil => exact absurd rfl hv
  | cons v vs =>
    rw [Memory.writeN, List.filter_append, List.filter_append,
      List.filter_eq_self.mpr (fun c hc => by have := (Memory.mem_listed hc).2.1; simpa using this),
      List.filter_eq_nil_iff.mpr (fun c hc => by have := h c hc; simpa using this),
      List.filter_eq_nil_iff.mpr (fun c hc => by have := (Memory.mem_listed hc).2.1; simp at this ⊢; omega),
      Memory.listed_append, Nat.zero_add]
    simp only [List.nil_append, List.append_assoc]

/-- What `EncodeWave` does to a frame that stands in `FRM` when 632 entries fit: the pulse train of
42_raw_waveform_encoder.md R186 in the first 632 entries, and nothing else. -/
theorem encodeWave_eq (s : State) (frame : List Byte) (m : Memory 8) (hf : frame.length = 39)
    (hm : ∀ c ∈ m, 39 ≤ c.1) (hs : s.frm = Memory.listed 0 frame ++ m) (hcap : 632 ≤ s.cfg.plsCap) :
    encodeWave s = .going
      { s with pls := Memory.listed 0 (wave frame) ++ plsBeyond s.pls, plsLen := 632 } := by
  have h1 : s.frm.readN 0 20 = frame.take 20 := by
    rw [hs, Memory.readN_listed _ _ _ _ (by omega) (by simpa [hf] using hm)]; rfl
  have h2 : s.frm.readN 20 19 = (frame.drop 20).take 19 := by
    rw [hs, Memory.readN_listed _ _ _ _ (by omega) (by simpa [hf] using hm)]
  have hl1 : (framePulses (frame.take 20) tGap).length = 324 := by simp [hf]
  have hl2 : (framePulses ((frame.drop 20).take 19) tEnd).length = 308 := by simp [hf]
  have hw1 : s.pls.writeN 0 (framePulses (frame.take 20) tGap) =
      Memory.listed 0 (framePulses (frame.take 20) tGap) ++ s.pls.filter (fun c => decide (324 ≤ c.1)) := by
    have := Memory.writeN_after [] (framePulses (frame.take 20) tGap) s.pls (by simp [framePulses]) (by simp)
    simpa [hl1] using this
  have e1 : emitFrame 0 19 tGap (s.setPlsLen 0) = .going
      { s with pls := s.pls.writeN 0 (framePulses (frame.take 20) tGap), plsLen := 324 } := by
    unfold emitFrame
    rw [show (s.setPlsLen 0).frm.readN 0 (19 + 1 - 0) = frame.take 20 from h1,
      appendAll_fits _ _ (by rw [hl1]; exact (by omega : 324 ≤ s.cfg.plsCap - 0)), hl1]
    rfl
  rw [encodeWave, e1, Run.andThen_going, emitFrame, h2,
    appendAll_fits _ _ (by rw [hl2]; exact (by omega : 308 ≤ s.cfg.plsCap - 324)), hl2, hw1]
  have := Memory.writeN_after (framePulses (frame.take 20) tGap) (framePulses ((frame.drop 20).take 19) tEnd)
    (s.pls.filter fun c => decide (324 ≤ c.1)) (by simp [framePulses])
    (fun c hc => by have := (List.mem_filter.mp hc).2; simp only [decide_eq_true_eq] at this; omega)
  rw [hl1, hl2] at this
  rw [this, List.filter_filter]
  congr 3
  apply List.filter_congr
  intro c _
  rw [← Bool.decide_and]
  apply decide_eq_decide.mpr
  omega

/-- What `EncodeWave` does when 632 entries do not fit: the latch is set, the step abandoned; only the first 632
entries of the pulse buffer may have changed besides (R180, 60 R234). -/
theorem encodeWave_overflow (s : State) (hcap : s.cfg.plsCap < 632) :
    ∃ p n, encodeWave s = .abandoned { s with pls := p, plsLen := n, fault := true } ∧
      ∀ a, 632 ≤ a → p.read a = s.pls.read a := by
  have hl1 : ∀ m : Memory 8, (framePulses (m.readN 0 20) tGap).length = 324 := by simp
  have hl2 : ∀ m : Memory 8, (framePulses (m.readN 20 19) tEnd).length = 308 := by simp
  have r1 : s.frm.readN 0 (19 + 1 - 0) = s.frm.readN 0 20 := rfl
  have r2 : s.frm.readN 20 (38 + 1 - 20) = s.frm.readN 20 19 := rfl
  by_cases h : 324 ≤ s.cfg.plsCap
  · have e1 : emitFrame 0 19 tGap (s.setPlsLen 0) = .going
        { s with pls := s.pls.writeN 0 (framePulses (s.frm.readN 0 20) tGap), plsLen := 324 } := by
      rw [emitFrame, State.setPlsLen_frm, r1,
        appendAll_fits _ _ (by rw [hl1]; exact (by omega : 324 ≤ s.cfg.plsCap - 0)), hl1]
      rfl
    rw [encodeWave, e1, Run.andThen_going, emitFrame, r2,
      appendAll_overflows _ _ (by rw [hl2]; exact (by omega : ¬ 308 ≤ s.cfg.plsCap - 324))]
    refine ⟨_, _, rfl, fun a ha => ?_⟩
    rw [Memory.read_writeN_outside _ _ _ _ (Or.inr (by simp only [List.length_take, hl2]; omega)),
      Memory.read_writeN_outside _ _ _ _ (Or.inr (by rw [hl1]; omega))]
  · rw [encodeWave, emitFrame, State.setPlsLen_frm, r1,
      appendAll_overflows _ _ (by rw [hl1]; exact (by omega : ¬ 324 ≤ s.cfg.plsCap - 0))]
    refine ⟨_, _, rfl, fun a ha => ?_⟩
    exact Memory.read_writeN_outside _ _ _ _ (Or.inr (by
      simp only [List.length_take, hl1, State.setPlsLen_plsLen]; omega))

end Sys2Proof.Machine
end

