-- ==== Sys2Proof/Laws/Transmit.lean ====
section
/-! SUPPORT. What a transmission does: one lemma per helper for a pulse buffer that holds 632 entries, one for a
smaller one. -/

namespace Sys2Proof.Machine

/-- The state after a transmission of `frame`. -/
def transmitted (s : State) (frame : List Byte) : State :=
  { s with
    frm := Memory.listed 0 frame ++ frmBeyond s.frm
    pls := Memory.listed 0 (wave frame) ++ plsBeyond s.pls
    plsLen := 632
    trace := s.trace ++ [acSend frame] }

theorem plsBeyond_le (m : Memory 16) : ∀ c ∈ plsBeyond m, 632 ≤ c.1 := fun c hc => by
  simpa using (List.mem_filter.mp hc).2

theorem read_listed_beyond {w : Nat} (l : List (BitVec w)) (m : Memory w) (n a : Nat) (hl : l.length = n) (ha : n ≤ a) :
    Memory.read (Memory.listed 0 l ++ m.filter fun c => decide (n ≤ c.1)) a = m.read a := by
  rw [Memory.read_append _ _ _ (fun c hc => by have := (Memory.mem_listed hc).2.1; omega)]
  exact Memory.read_filter m (fun k => decide (n ≤ k)) a (by simpa using ha)

/-- What a transmission leaves in the buffers. -/
theorem transmitted_buffers (s : State) (frame : List Byte) (h : frame.length = 39) :
    BuffersHold s (transmitted s frame) frame := by
  have hw := length_wave frame h
  refine ⟨rfl, ?_, fun a ha => read_listed_beyond _ _ _ _ h ha, ?_, fun a ha => read_listed_beyond _ _ _ _ hw ha⟩
  · simp only [transmitted]
    rw [Memory.readN_listed _ _ 0 39 (by omega) (by simpa [h] using frmBeyond_le s.frm), List.drop_zero,
      List.take_of_length_le (by omega)]
  · simp only [transmitted]
    rw [Memory.readN_listed _ _ 0 632 (by omega) (by simpa [hw] using plsBeyond_le s.pls), List.drop_zero,
      List.take_of_length_le (by omega)]

theorem wf_listed_beyond {w : Nat} (l : List (BitVec w)) (m : Memory w) (n : Nat) (hl : l.length = n)
    (hm : m.wf = true) : Memory.wf (Memory.listed 0 l ++ m.filter fun c => decide (n ≤ c.1)) = true := by
  subst hl
  cases l with
  | nil =>
    rw [Memory.listed_nil, List.nil_append, List.filter_eq_self.mpr (by simp)]
    exact hm
  | cons v vs =>
    have := Memory.writeN_wf m 0 (v :: vs) hm
    rw [Memory.writeN, List.filter_eq_nil_iff.mpr (by simp), List.nil_append] at this
    simpa only [Nat.zero_add] using this

theorem within_listed_beyond {w : Nat} (l : List (BitVec w)) (m : Memory w) (n k : Nat) (hl : l.length = n)
    (hk : n ≤ k) (hm : m.within k = true) :
    Memory.within k (Memory.listed 0 l ++ m.filter fun c => decide (n ≤ c.1)) = true := by
  rw [Memory.within_iff] at hm ⊢
  intro c hc
  rcases List.mem_append.mp hc with hc | hc
  · have := (Memory.mem_listed hc).2.1; omega
  · exact hm c (List.mem_of_mem_filter hc)

/-- `waveAndSend` on a frame that stands in `FRM`. -/
theorem waveAndSend_eq (s : State) (frame : List Byte) (hf : frame.length = 39)
    (hcap : 632 ≤ s.cfg.plsCap) :
    waveAndSend { s with frm := Memory.listed 0 frame ++ frmBeyond s.frm } = .going (transmitted s frame) := by
  have e := encodeWave_eq { s with frm := Memory.listed 0 frame ++ frmBeyond s.frm } frame (frmBeyond s.frm) hf
    (frmBeyond_le _) rfl hcap
  rw [waveAndSend, e, Run.andThen_going]
  have hw := length_wave frame hf
  have := Memory.readN_listed (wave frame) (plsBeyond s.pls) 0 632 (by omega) (by simpa [hw] using plsBeyond_le s.pls)
  simp only [sendPulses, State.emit, transmitted, this, List.drop_zero,
    List.take_of_length_le (le_of_eq hw), acSend]

/-- What an abandoned transmission may have changed: the buffers inside their extents, and the latch. -/
def AbandonedFrom (s : State) (r : Run) : Prop :=
  ∃ m p n, r = .abandoned { s with frm := m, pls := p, plsLen := n, fault := true } ∧
    (∀ a, 39 ≤ a → m.read a = s.frm.read a) ∧ ∀ a, 632 ≤ a → p.read a = s.pls.read a

theorem waveAndSend_overflow (s : State) (frame : List Byte) (hf : frame.length = 39) (hcap : s.cfg.plsCap < 632) :
    AbandonedFrom s (waveAndSend { s with frm := Memory.listed 0 frame ++ frmBeyond s.frm }) := by
  obtain ⟨p, n, h, hp⟩ := encodeWave_overflow { s with frm := Memory.listed 0 frame ++ frmBeyond s.frm } hcap
  exact ⟨_, p, n, by rw [waveAndSend, h]; rfl, fun a ha => read_listed_beyond _ _ _ _ hf ha, hp⟩

/-- What `TransmitAC()` does (40 R127). -/
theorem transmitAC_eq (s : State) (hcap : 632 ≤ s.cfg.plsCap) :
    transmitAC s = .going (transmitted s (acFrame s.cfg s.mode s.tempX2 s.fanHex)) := by
  rw [transmitAC, encodeFrame_eq, waveAndSend_eq _ _ (by simp) hcap]

/-- `TransmitAC()` with too small a pulse buffer (60 R234). -/
theorem transmitAC_overflow (s : State) (hcap : s.cfg.plsCap < 632) : AbandonedFrom s (transmitAC s) := by
  rw [transmitAC, encodeFrame_eq]
  exact waveAndSend_overflow s _ (by simp) hcap

@[simp] theorem length_offFrame (cfg : Cfg) : (offFrame cfg).length = 39 := length_romRead _ _ _

/-- What `TransmitOff()` does (40 R128). -/
theorem transmitOff_eq (s : State) (hcap : 632 ≤ s.cfg.plsCap) :
    transmitOff s = .going (transmitted s (offFrame s.cfg)) := by
  rw [transmitOff, copyOff_eq]
  exact waveAndSend_eq s (offFrame s.cfg) (length_offFrame _) hcap

/-- `TransmitOff()` with too small a pulse buffer (60 R234). -/
theorem transmitOff_overflow (s : State) (hcap : s.cfg.plsCap < 632) : AbandonedFrom s (transmitOff s) := by
  rw [transmitOff, copyOff_eq]
  exact waveAndSend_overflow s (offFrame s.cfg) (length_offFrame _) hcap

/-- What `ForcedOff()` does (40 R123). -/
theorem forcedOff_eq (s : State) (hcap : 632 ≤ s.cfg.plsCap) :
    forcedOff s = .going { transmitted s (offFrame s.cfg) with powerOn := false, offDeadline := 0 } := by
  rw [forcedOff, transmitOff_eq s hcap]; rfl

/-- `ForcedOff()` with too small a pulse buffer: abandoned before the registers are written (60 R234). -/
theorem forcedOff_overflow (s : State) (hcap : s.cfg.plsCap < 632) : AbandonedFrom s (forcedOff s) := by
  obtain ⟨m, p, n, h, hm, hp⟩ := transmitOff_overflow s hcap
  exact ⟨m, p, n, by rw [forcedOff, h]; rfl, hm, hp⟩

end Sys2Proof.Machine
end

