-- ==== Sys2Proof/Laws/Exec.lean ====
section
/-! SUPPORT. What each command and each step does, for a pulse buffer that holds 632 entries. -/

namespace Sys2Proof.Machine

/-- Every command completes: `exec` never faults or refuses. -/
theorem exec_completes (i : Instr) (s : State) : ∃ t, exec i s = .next t := by
  cases i <;> exact ⟨_, rfl⟩

theorem defaultFan_eq (s : State) :
    defaultFan s = { s with fanHex := if s.fanHex = 0 then s.cfg.fanAuto else s.fanHex } := by
  by_cases h : s.fanHex = 0
  · rw [defaultFan, if_pos h, if_pos h]; rfl
  · rw [defaultFan, if_neg h, if_neg h]

/-- The register writes of `SETMODE` as one update (40 R120). -/
theorem setmodeWrites_eq (m : Mode) (s : State) :
    setmodeWrites m s =
      { s with
        mode := m
        tempX2 := defaultTemp m
        powerOn := true
        fanHex := if s.fanHex = 0 then s.cfg.fanAuto else s.fanHex } := by
  rw [setmodeWrites, defaultFan_eq]; rfl

theorem execSetmode_recognised (token : ModeToken) (m : Mode) (s : State) (hm : modeOperand token = some m)
    (hcap : 632 ≤ s.cfg.plsCap) :
    execSetmode token s = .next
      (transmitted (setmodeWrites m s)
        (acFrame s.cfg m (defaultTemp m) (if s.fanHex = 0 then s.cfg.fanAuto else s.fanHex))).respondOk := by
  have hc : (setmodeWrites m s).cfg = s.cfg := by rw [setmodeWrites_eq]
  unfold execSetmode
  rw [hm]
  simp only
  rw [transmitAC_eq _ (by rw [hc]; exact hcap), Run.finish_going, setmodeWrites_eq]

theorem transmitIfOn_on (s : State) (hon : s.powerOn = true) (hcap : 632 ≤ s.cfg.plsCap) :
    transmitIfOn s = .going (transmitted s (acFrame s.cfg s.mode s.tempX2 s.fanHex)) := by
  rw [transmitIfOn, if_pos hon, transmitAC_eq s hcap]

theorem transmitIfOn_off (s : State) (hoff : s.powerOn = false) : transmitIfOn s = .going s := by
  rw [transmitIfOn, if_neg (by simp [hoff])]

theorem execPoweroff_eq (arg : Arg) (s : State) (hcap : 632 ≤ s.cfg.plsCap) :
    execPoweroff arg s = .next
      ({ transmitted s (offFrame s.cfg) with powerOn := false, offDeadline := 0 } : State).respondOk := by
  rw [execPoweroff, forcedOff_eq s hcap]; rfl

/-- The end of a step that was not abandoned. -/
theorem endStep_going (p : Phase) (s : State) (h : s.fault = false) : endStep p s = (s.setPhase p).passTime := by
  rw [endStep, if_neg (by simp [h])]

theorem tick_idle (s : State) (h : s.expired = false) : tick s = .going s := by
  rw [tick, if_neg (by simp [h])]

theorem tick_expired (s : State) (h : s.expired = true) (hcap : 632 ≤ s.cfg.plsCap) :
    tick s = .going { transmitted s (offFrame s.cfg) with powerOn := false, offDeadline := 0 } := by
  rw [tick, if_pos h, forcedOff_eq s hcap]

theorem step_halted (s : State) (h : s.fault = true) : step s = .fault .bufferOverflow := by
  rw [step, loopStep, if_pos h]

theorem step_poll (s : State) (hf : s.fault = false) (hp : s.phase = .poll) : step s = .next (pollStep s) := by
  rw [step, loopStep, if_neg (by simp [hf]), hp]

theorem step_service (s : State) (hf : s.fault = false) (hp : s.phase = .service) : step s = serviceStep s := by
  rw [step, loopStep, if_neg (by simp [hf]), hp]

end Sys2Proof.Machine
end

