-- ==== Sys2Proof/Laws/Status.lean ====
section
/-! SUPPORT. The status record as a number. -/

namespace Sys2Proof.Machine

theorem toNat_append_mul {m n : Nat} (x : BitVec m) (y : BitVec n) :
    (x ++ y).toNat = x.toNat * 2 ^ n + y.toNat := by
  rw [BitVec.toNat_append, Nat.shiftLeft_eq, Nat.mul_comm, ← Nat.two_pow_add_eq_or_of_lt y.isLt]

/-- The status record as a number (30 R88). -/
theorem statusWord_toNat (s : State) :
    s.statusWord.toNat =
      ((((s.powerOn.toNat * 2 + (modeBit s.mode).toNat) * 2 ^ 7 + s.tempX2.toNat) * 2 ^ 8 + s.fanHex.toNat) * 2 +
        s.armed.toNat) * 2 ^ 32 + s.timerLeft.toNat := by
  have h : s.statusWord.toNat = (BitVec.ofBool s.powerOn ++ modeBit s.mode ++ s.tempX2 ++ s.fanHex ++
      BitVec.ofBool s.armed ++ s.timerLeft).toNat := rfl
  rw [h, toNat_append_mul, toNat_append_mul, toNat_append_mul, toNat_append_mul, toNat_append_mul]
  simp

end Sys2Proof.Machine
end

