-- ==== Sys2Proof/Tests/Slice0.lean ====
section
/-! SUPPORT. Tests of the model against the words and vectors of the spec, and a witness for every statement with
hypotheses. Expected values are those of 30_encoding.md R102 and of 95_test_vectors.md, under `CFG_TEST`. -/

namespace Sys2Proof.Tests

open Sys2Proof Sys2Proof.Machine

/-! ## Helpers -/

/-- A state under `CFG_TEST`, written `(powerOn, mode, tempX2, fanHex, offDeadline)` at clock `now` as in section 2.3
of 95_test_vectors.md. -/
def acState (powerOn : Bool) (mode : Mode) (tempX2 : Temp) (fanHex : Byte) (offDeadline now : Time) : State :=
  { State.resetWith Cfg.test now with
    powerOn := powerOn, mode := mode, tempX2 := tempX2, fanHex := fanHex, offDeadline := offDeadline }

/-- The same with the pulse buffer's capacity `cap`. -/
def smallState (cap : Nat) (powerOn : Bool) : State :=
  { State.resetWith { Cfg.test with plsCap := cap } 0 with powerOn := powerOn }

/-- The same state in the `SERVICE` phase, with `arrivals` presented. -/
def serving (arrivals : List (Option Cmd)) (s : State) : State :=
  { s with phase := .service, arrivals := arrivals, elapse := [5, 5, 5, 5] }

/-- The AC registers and the deadline. -/
structure AcRegisters where
  powerOn : Bool
  mode : Mode
  tempX2 : Temp
  fanHex : Byte
  offDeadline : Time
deriving DecidableEq, Repr

/-- The AC registers and the deadline of `s`. -/
def acOf (s : State) : AcRegisters := ⟨s.powerOn, s.mode, s.tempX2, s.fanHex, s.offDeadline⟩

/-- What `f` sees of the next state; nothing after a fault or a refusal. -/
def seen {α : Type} (f : State → α) : Host.Outcome State Fault Refusal → Option α
  | .next s => some (f s)
  | .fault _ => none
  | .refused _ => none

/-- `TV_OFF` of section 0. -/
def tvOff : List Byte :=
  [0x07, 0x30, 0x59, 0x82, 0xAB, 0xD4, 0xFD, 0x26, 0x4F, 0x78, 0xA1, 0xCA, 0xF3, 0x1C, 0x45, 0x6E, 0x97, 0xC0, 0xE9,
   0xE8, 0x3B, 0x64, 0x8D, 0xB6, 0xDF, 0x08, 0x31, 0x5A, 0x83, 0xAC, 0xD5, 0xFE, 0x27, 0x50, 0x79, 0xA2, 0xCB, 0xF4,
   0xA7]

/-- The frame of V-F1. -/
def vF1 : List Byte :=
  [0x03, 0x14, 0x25, 0x36, 0x47, 0x58, 0x69, 0x7A, 0x8B, 0x9C, 0xAD, 0xBE, 0xCF, 0xE0, 0xF1, 0x02, 0x13, 0x24, 0x35,
   0x94, 0x57, 0x68, 0x79, 0x8A, 0x9B, 0xAC, 0x30, 0xCE, 0xA0, 0xF0, 0x01, 0x12, 0x23, 0x34, 0x45, 0x56, 0x67, 0x78,
   0x7B]

/-- The frame of V-F4. -/
def vF4 : List Byte :=
  [0x05, 0x22, 0x3F, 0x5C, 0x79, 0x96, 0xB3, 0xD0, 0xED, 0x0A, 0x27, 0x44, 0x61, 0x7E, 0x9B, 0xB8, 0xD5, 0xF2, 0x0F,
   0xBE, 0x49, 0x66, 0x83, 0xA0, 0xBD, 0xDA, 0x37, 0x14, 0xA0, 0x4E, 0x6B, 0x88, 0xA5, 0xC2, 0xDF, 0xFC, 0x19, 0x36,
   0x26]

/-! ## Well-formedness: one ill-formed term for each check -/

theorem test_wf_refuses_known_mode_as_unrecognised : (Instr.setmode (.unrecognised 1)).wf = false := by decide
theorem test_wf_refuses_known_direction_as_unrecognised : (Instr.steptemp (.unrecognised 0)).wf = false := by decide
theorem test_wf_refuses_known_fan_as_unrecognised : (Instr.setfan (.unrecognised 6)).wf = false := by decide
theorem test_wf_refuses_known_scene_as_unrecognised : (Instr.playlight (.unrecognised 2)).wf = false := by decide
theorem test_wf_refuses_minutes_above_range : (Instr.armtimer 2147483648).wf = false := by decide
theorem test_wf_refuses_minutes_below_range : (Instr.armtimer (-2147483649)).wf = false := by decide

theorem test_cfg_test_is_wellFormed : Cfg.test.WellFormed := by decide
theorem test_cfg_refuses_wrong_off_checksum :
    ¬ ({ Cfg.test with tplOff := Cfg.test.tplOff.set 38 0xA8 } : Cfg).WellFormed := by decide
theorem test_cfg_refuses_equal_fan_codes : ¬ ({ Cfg.test with fanLv5 := 0x60 } : Cfg).WellFormed := by decide
theorem test_cfg_refuses_third_night_frame :
    ¬ ({ Cfg.test with lgtNight := ⟨[1], [1], [1]⟩ } : Cfg).WellFormed := by decide

/-! ## Words written out bit by bit: `op` in bits 35..32, `arg` in bits 31..0 (R80, R81, R102) -/

theorem test_decode_setmode_heat :
    decode 0b0001_00000000000000000000000000000000#36 = .ok (.setmode .heat) := by decide
theorem test_decode_setmode_cool :
    decode 0b0001_00000000000000000000000000000001#36 = .ok (.setmode .cool) := by decide
theorem test_decode_setmode_unrecognised :
    decode 0b0001_00000000000000000000000000000010#36 = .ok (.setmode (.unrecognised 2)) := by decide
theorem test_decode_steptemp_negative :
    decode 0b0010_00000000000000000000000000000000#36 = .ok (.steptemp .negative) := by decide
theorem test_decode_steptemp_positive :
    decode 0b0010_00000000000000000000000000000001#36 = .ok (.steptemp .positive) := by decide
theorem test_decode_setfan_auto :
    decode 0b0011_00000000000000000000000000000000#36 = .ok (.setfan .auto) := by decide
theorem test_decode_setfan_selectors :
    decode 0x300000001#36 = .ok (.setfan .quiet) ∧ decode 0x300000002#36 = .ok (.setfan .lv1) ∧
    decode 0x300000003#36 = .ok (.setfan .lv2) ∧ decode 0x300000004#36 = .ok (.setfan .lv3) ∧
    decode 0x300000005#36 = .ok (.setfan .lv4) ∧ decode 0x300000006#36 = .ok (.setfan .lv5) ∧
    decode 0x300000007#36 = .ok (.setfan (.unrecognised 7)) := by decide
theorem test_decode_poweroff_ignores_arg :
    decode 0b0100_11011110101011011011111011101111#36 = .ok (.poweroff 0xDEADBEEF) := by decide
theorem test_decode_armtimer_30 :
    decode 0b0101_00000000000000000000000000011110#36 = .ok (.armtimer 30) := by decide
theorem test_decode_armtimer_signed :
    decode 0x5FFFFFFFB#36 = .ok (.armtimer (-5)) ∧ decode 0x580000000#36 = .ok (.armtimer (-2147483648)) ∧
    decode 0x57FFFFFFF#36 = .ok (.armtimer 2147483647) := by decide
theorem test_decode_canceltimer :
    decode 0b0110_00000000000000000000000000000000#36 = .ok (.canceltimer 0) := by decide
theorem test_decode_getstatus :
    decode 0b0111_00000000000000000000000000000000#36 = .ok (.getstatus 0) := by decide
theorem test_decode_playlight_scenes :
    decode 0b1000_00000000000000000000000000000000#36 = .ok (.playlight .on) ∧
    decode 0b1000_00000000000000000000000000000001#36 = .ok (.playlight .night) ∧
    decode 0b1000_00000000000000000000000000000010#36 = .ok (.playlight .off) ∧
    decode 0b1000_00000000000000000000000000000011#36 = .ok (.playlight (.unrecognised 3)) := by decide
theorem test_decode_reserved_opcodes :
    decode 0x000000000#36 = .error (.reservedOpcode 0) ∧ decode 0x900000000#36 = .error (.reservedOpcode 9) ∧
    decode 0xF12345678#36 = .error (.reservedOpcode 15) := by decide
theorem test_encode_words :
    encode (.setmode .cool) = 0x100000001#36 ∧ encode (.setfan .lv3) = 0x300000004#36 ∧
    encode (.armtimer (-5)) = 0x5FFFFFFFB#36 ∧ encode (.playlight .night) = 0x800000001#36 := by decide
theorem test_decodeTableWord :
    decodeTableWord 40 0x50000001E = some (.armtimer 30) ∧ decodeTableWord 40 0x1100000000 = none ∧
    decodeTableWord 40 0x900000000 = none := by decide
theorem test_text_of_commands :
    commandText (.armtimer (-5)) = some "ArmTimer(-5)" ∧ commandText (.setfan .lv3) = some "SetFan(3)" := by decide

/-! ## Frames and pulses (2.1, 2.2) -/

theorem test_encodeFrame_V_F1 :
    (encodeFrame .cool 48 0xA0 (acState false .cool 48 0 0 0)).frm.readN 0 39 = vF1 := by decide +kernel
theorem test_encodeFrame_V_F4 :
    (encodeFrame .heat 55 0xA0 (acState false .cool 48 0 0 0)).frm.readN 0 39 = vF4 := by decide +kernel
theorem test_pulses_of_byte_0x94 :
    byteBits 0x94 = [430, 430, 430, 430, 430, 1300, 430, 430, 430, 1300, 430, 430, 430, 430, 430, 1300] := by decide
theorem test_pulses_of_byte_0xE8 :
    byteBits 0xE8 = [430, 430, 430, 430, 430, 430, 430, 1300, 430, 430, 430, 1300, 430, 1300, 430, 1300] := by decide
theorem test_wave_V_W5 : (wave tvOff).length = 632 ∧ pulseTime (wave tvOff) = 452810 := by decide +kernel

/-! ## Commands, one step each (2.3 to 2.6) -/

/-- V-A2. -/
theorem test_setmode_heat :
    seen (fun t => (acOf t, t.trace, t.responses)) (exec (.setmode .heat) (acState false .cool 48 0 0 0)) =
      some (⟨true, .heat, 55, 0xA0, 0⟩, [acSend vF4], [⟨.ok, none⟩]) := by decide +kernel
/-- V-A5. -/
theorem test_setmode_unrecognised :
    seen (fun t => (acOf t, t.trace, t.responses)) (execute 0x100000002 (acState true .heat 60 0x50 7 0)) =
      some (⟨true, .heat, 60, 0x50, 7⟩, [], [⟨.ok, none⟩]) := by decide +kernel
/-- V-A7: clamped, still sent; V-F7 has `0x40` at 26 and `0x2F` at 38. -/
theorem test_steptemp_clamped :
    seen (fun t => (acOf t, t.trace.length, t.frm.read 26, t.frm.read 38))
      (exec (.steptemp .positive) (acState true .heat 64 0xA0 0 0)) =
      some (⟨true, .heat, 64, 0xA0, 0⟩, 1, 0x40, 0x2F) := by decide +kernel
/-- V-A9. -/
theorem test_steptemp_while_off :
    seen (fun t => (acOf t, t.trace)) (exec (.steptemp .negative) (acState false .cool 48 0x50 0 0)) =
      some (⟨false, .cool, 47, 0x50, 0⟩, []) := by decide +kernel
/-- V-A11: V-F3 has `0xB0` at 28 and `0x8C` at 38. -/
theorem test_setfan_while_on :
    seen (fun t => (acOf t, t.trace.length, t.frm.read 28, t.frm.read 38))
      (exec (.setfan .quiet) (acState true .cool 49 0xA0 0 0)) =
      some (⟨true, .cool, 49, 0xB0, 0⟩, 1, 0xB0, 0x8C) := by decide +kernel
/-- V-A12. -/
theorem test_setfan_while_off :
    seen (fun t => (acOf t, t.trace)) (execute 0x300000004 (acState false .cool 48 0 0 0)) =
      some (⟨false, .cool, 48, 0x50, 0⟩, []) := by decide +kernel
/-- V-A14. -/
theorem test_poweroff :
    seen (fun t => (acOf t, t.trace, t.responses)) (execute 0x4DEADBEEF (acState true .heat 55 0x50 1801000 0)) =
      some (⟨false, .heat, 55, 0x50, 0⟩, [acSend tvOff], [⟨.ok, none⟩]) := by decide +kernel
/-- V-T5. -/
theorem test_armtimer_wraps :
    seen (fun t => (t.offDeadline, t.responses)) (exec (.armtimer 1) (acState false .cool 48 0 0 0xFFFFF000)) =
      some (0x0000DA60, [⟨.ok, none⟩]) := by decide +kernel
/-- V-T4. -/
theorem test_armtimer_negative :
    seen (fun t => (t.offDeadline, t.responses)) (execute 0x5FFFFFFFB (acState false .cool 48 0 300100 300)) =
      some (300100, [⟨.invalidTimerDuration, none⟩]) := by decide +kernel
/-- V-T15. -/
theorem test_canceltimer :
    seen (fun t => (acOf t, t.armed, t.trace)) (exec (.canceltimer 0) (acState true .heat 55 0xA0 1801000 0)) =
      some (⟨true, .heat, 55, 0xA0, 0⟩, false, []) := by decide +kernel
/-- V-S2. -/
theorem test_getstatus_armed :
    seen State.responses (exec (.getstatus 0) (acState true .heat 55 0xA0 1801000 1799001)) =
      some [⟨.ok, some 0x26F4100000001⟩] := by decide +kernel
/-- V-S5. -/
theorem test_getstatus_long :
    seen State.responses (exec (.getstatus 0) (acState false .cool 48 0 2147460000 1)) =
      some [⟨.ok, some 0x160010020C483⟩] := by decide +kernel
/-- V-L1: twelve sends and thirteen delays, 820 ms. -/
theorem test_playlight_night :
    seen (fun t => (t.trace.length, t.trace.take 4, (t.trace.map fun e => match e with | .send _ _ => 0 | .delay d => d).sum))
      (exec (.playlight .night) (acState false .cool 48 0 0 0)) =
      some (25, [.delay 30, .send [3500, 1700, 450, 1300, 450, 1300, 450, 0] 38, .delay 40,
        .send [3500, 1700, 450, 450, 450, 1300, 450, 0] 38], 820) := by decide +kernel
/-- V-L4. -/
theorem test_playlight_unknown :
    seen (fun t => (t.trace, t.responses)) (execute 0x800000003 (acState false .cool 48 0 0 0)) =
      some ([], [⟨.unknownScene, none⟩]) := by decide +kernel

/-! ## The control loop -/

/-- V-T10. -/
theorem test_tick_fires :
    seen (fun t => (acOf t, t.trace, t.phase)) (step (acState true .heat 55 0xA0 1801000 1801000)) =
      some (⟨false, .heat, 55, 0xA0, 0⟩, [acSend tvOff], .service) := by decide +kernel
/-- V-T13. -/
theorem test_tick_before_wrap :
    seen (fun t => (acOf t, t.trace, t.phase)) (step (acState true .heat 55 0xA0 0x0000DA60 0xFFFFFFFF)) =
      some (⟨true, .heat, 55, 0xA0, 0x0000DA60⟩, [], .service) := by decide +kernel
theorem test_reserved_opcode_is_serviced :
    seen (fun t => (acOf t, t.responses, t.phase)) (step (serving [some 0xF12345678] (acState true .heat 55 0xA0 7 0))) =
      some (⟨true, .heat, 55, 0xA0, 7⟩, [⟨.unknownCommand, none⟩], .poll) := by decide +kernel
theorem test_fetched_word_runs_from_reset :
    seen (fun t => (t.responses, t.phase)) (step (State.reset.withFetchWord 40 0x600000000)) =
      some ([⟨.ok, none⟩], .poll) := by rfl
/-- R234: the step that overflows leaves the latch set and the phase where it was. -/
theorem test_overflow_halts :
    seen (fun t => (t.fault, t.phase, t.plsLen, t.trace, t.responses))
      (step (serving [some 0x400000000] (smallState 1 true))) = some (true, .service, 1, [], []) := by decide +kernel

/-! ## Witnesses: for every statement with hypotheses, states and operands that meet them -/

theorem witness_DecodeOfEncodeIsIdentity :
    (Instr.armtimer 2147483647).wf = true ∧ (Instr.armtimer (-2147483648)).wf = true ∧
    (Instr.setmode (.unrecognised 2)).wf = true ∧ (Instr.steptemp (.unrecognised 2)).wf = true ∧
    (Instr.setfan (.unrecognised 7)).wf = true ∧ (Instr.playlight (.unrecognised 3)).wf = true := by decide

theorem witness_EncodeOfDecodeIsIdentity : decode 0x57FFFFFFF#36 = .ok (.armtimer 2147483647) := by decide

theorem witness_DecoderAcceptsOpcodesOneToEight :
    (1 ≤ (opField 0x100000000).toNat ∧ (opField 0x100000000).toNat ≤ 8) ∧
    (1 ≤ (opField 0x8FFFFFFFF).toNat ∧ (opField 0x8FFFFFFFF).toNat ≤ 8) ∧
    ¬ (1 ≤ (opField 0x0FFFFFFFF).toNat ∧ (opField 0x0FFFFFFFF).toNat ≤ 8) ∧
    ¬ (1 ≤ (opField 0x900000000).toNat ∧ (opField 0x900000000).toNat ≤ 8) := by decide

/-- A command that completes, and one whose transmission overflows. -/
theorem witness_ServiceStepRunsDecodedCommand :
    (∃ (s t : State) (cmd : Cmd) (rest : List (Option Cmd)) (i : Instr),
      s.fault = false ∧ s.phase = .service ∧ s.arrivals = some cmd :: rest ∧ decode cmd = .ok i ∧
      exec i { s with arrivals := rest } = .next t ∧ t.fault = false) ∧
    (∃ (s t : State) (cmd : Cmd) (rest : List (Option Cmd)) (i : Instr),
      s.fault = false ∧ s.phase = .service ∧ s.arrivals = some cmd :: rest ∧ decode cmd = .ok i ∧
      exec i { s with arrivals := rest } = .next t ∧ t.fault = true) :=
  ⟨⟨serving [some 0x60000000A] (acState true .heat 55 0xA0 7 0), _, 0x60000000A, [], .canceltimer 10,
      rfl, rfl, rfl, by decide, rfl, rfl⟩,
    ⟨serving [some 0x400000000] (smallState 0 true), _, 0x400000000, [], .poweroff 0,
      rfl, rfl, rfl, by decide, rfl, by decide +kernel⟩⟩

theorem witness_FetchWordIsServicedNext :
    State.reset.fault = false ∧ decodeTableWord 40 0x60000000A = some (.canceltimer 10) := ⟨rfl, by decide⟩

theorem witness_IdleServiceOnlyMovesToPoll :
    (∃ (s : State) (rest : List (Option Cmd)),
      s.fault = false ∧ s.phase = .service ∧ s.arrivals = none :: rest) ∧
    (∃ s : State, s.fault = false ∧ s.phase = .service ∧ s.arrivals = []) :=
  ⟨⟨serving [none, some 0x600000000] (acState true .heat 55 0xA0 7 9), [some 0x600000000], rfl, rfl, rfl⟩,
    ⟨serving [] (acState true .heat 55 0xA0 7 9), rfl, rfl, rfl⟩⟩

/-- Disarmed; one millisecond before the deadline; `2^31` ms before it. -/
theorem witness_PollBeforeDeadlineDoesNothing :
    (∃ s : State, s.fault = false ∧ s.phase = .poll ∧ s.offDeadline = 0) ∧
    (∃ s : State, s.fault = false ∧ s.phase = .poll ∧ s.offDeadline ≠ 0 ∧ (s.clock - s.offDeadline).toInt = -1) ∧
    (∃ s : State, s.fault = false ∧ s.phase = .poll ∧ s.offDeadline ≠ 0 ∧
      (s.clock - s.offDeadline).toInt = -2147483648) :=
  ⟨⟨acState true .heat 55 0xA0 0 9, by decide⟩, ⟨acState true .heat 55 0xA0 0xA 9, by decide⟩,
    ⟨acState true .heat 55 0xA0 0x80000009 9, by decide⟩⟩

/-- At the deadline, and `2^31 - 1` ms past it, across the wrap. -/
theorem witness_ExpiredPollForcesOff :
    (∃ s : State, s.fault = false ∧ s.phase = .poll ∧ 632 ≤ s.cfg.plsCap ∧ s.offDeadline ≠ 0 ∧
      (s.clock - s.offDeadline).toInt = 0) ∧
    (∃ s : State, s.fault = false ∧ s.phase = .poll ∧ 632 ≤ s.cfg.plsCap ∧ s.offDeadline ≠ 0 ∧
      (s.clock - s.offDeadline).toInt = 2147483647) :=
  ⟨⟨acState true .heat 55 0xA0 9 9, by decide⟩, ⟨acState true .heat 55 0xA0 0xFFFFFFFF 0x7FFFFFFE, by decide⟩⟩

theorem witness_ExpiryIsSignedDifference :
    (∃ (s : State) (e : Nat), e < 2 ^ 31 ∧ s.offDeadline ≠ 0 ∧ s.clock = s.offDeadline + BitVec.ofNat 32 e) ∧
    (∃ (s : State) (e : Nat), e < 2 ^ 31 ∧ s.offDeadline ≠ 0 ∧ 0 < e ∧
      s.clock = s.offDeadline - BitVec.ofNat 32 e) :=
  ⟨⟨acState true .heat 55 0xA0 0xFFFFFFFF 0x7FFFFFFE, 2147483647, by decide⟩,
    ⟨acState true .heat 55 0xA0 1 0x80000002, 2147483647, by decide⟩⟩

theorem witness_SetmodeSetsModeAndTransmits :
    (∃ (s : State) (fan : Byte), 632 ≤ s.cfg.plsCap ∧ s.fanHex = 0 ∧
      fan = (if s.fanHex = 0 then s.cfg.fanAuto else s.fanHex)) ∧
    (∃ (s : State) (fan : Byte), 632 ≤ s.cfg.plsCap ∧ s.fanHex ≠ 0 ∧
      fan = (if s.fanHex = 0 then s.cfg.fanAuto else s.fanHex)) ∧
    (ModeToken.heat, Mode.heat, 55#7) = (ModeToken.heat, Mode.heat, 55#7) ∧
    (ModeToken.cool, Mode.cool, 48#7) = (ModeToken.cool, Mode.cool, 48#7) :=
  ⟨⟨acState false .cool 48 0 0 0, 0xA0, by decide⟩, ⟨acState false .cool 48 0x50 0 0, 0x50, by decide⟩, rfl, rfl⟩

/-- Both ends of the range. -/
theorem witness_SteptempWhileOffOnlySteps :
    (∃ s : State, s.powerOn = false ∧ s.tempX2 = 36) ∧ (∃ s : State, s.powerOn = false ∧ s.tempX2 = 64) :=
  ⟨⟨acState false .cool 36 0 0 0, by decide⟩, ⟨acState false .cool 64 0 0 0, by decide⟩⟩

theorem witness_SteptempWhileOnRetransmits :
    (∃ (s : State) (temp : Temp), s.powerOn = true ∧ 632 ≤ s.cfg.plsCap ∧ s.tempX2 = 64 ∧
      temp = BitVec.ofNat 7 (max 36 (min 64 (s.tempX2.toNat + 1)))) ∧
    (∃ (s : State) (temp : Temp), s.powerOn = true ∧ 632 ≤ s.cfg.plsCap ∧ s.tempX2 = 36 ∧
      temp = BitVec.ofNat 7 (max 36 (min 64 (s.tempX2.toNat - 1)))) :=
  ⟨⟨acState true .cool 64 0xA0 0 0, 64, by decide⟩, ⟨acState true .cool 36 0xA0 0 0, 36, by decide⟩⟩

theorem witness_SetfanSetsFanAndTransmitsWhenOn :
    (∃ s : State, s.powerOn = false) ∧ (∃ s : State, s.powerOn = true ∧ 632 ≤ s.cfg.plsCap) ∧
    (∀ s : State, (FanToken.auto, s.cfg.fanAuto) ∈
      [(FanToken.auto, s.cfg.fanAuto), (.quiet, s.cfg.fanQuiet), (.lv1, s.cfg.fanLv1), (.lv2, s.cfg.fanLv2),
        (.lv3, s.cfg.fanLv3), (.lv4, s.cfg.fanLv4), (.lv5, s.cfg.fanLv5)]) :=
  ⟨⟨acState false .cool 48 0 0 0, rfl⟩, ⟨acState true .cool 48 0xA0 0 0, by decide⟩, fun _ => by simp⟩

theorem witness_PoweroffSendsOffFrame :
    (∃ s : State, 632 ≤ s.cfg.plsCap ∧ s.powerOn = false) ∧ opField 0x4DEADBEEF = 4 :=
  ⟨⟨acState false .cool 48 0 0 0, by decide⟩, by decide⟩

theorem witness_CanceltimerDisarms : opField 0x6FFFFFFFF = 6 := by decide

theorem witness_ArmtimerRejectsNonPositive :
    (0 : Int) ≤ 0 ∧ (-2147483648 : Int) ≤ 0 ∧
    (∃ cmd : Cmd, opField cmd = 5 ∧ (argField cmd).toInt = 0) ∧
    (∃ cmd : Cmd, opField cmd = 5 ∧ (argField cmd).toInt = -2147483648) :=
  ⟨by decide, by decide, ⟨0x500000000, by decide⟩, ⟨0x580000000, by decide⟩⟩

theorem witness_ArmtimerSetsDeadline :
    ∃ (minutes : Nat) (cmd : Cmd), 0 < minutes ∧ opField cmd = 5 ∧ (argField cmd).toInt = minutes :=
  ⟨2147483647, 0x57FFFFFFF, by decide⟩

theorem witness_ArmtimerForgetsEarlierDeadline : ∃ minutes : Int, 0 < minutes := ⟨1, by decide⟩

/-- The shortest timer at its last silent millisecond, the longest at the end of its window. -/
theorem witness_TimerIsDelayWithinRange :
    (∃ (s t u : State) (minutes e : Nat), minutes = 1 ∧ exec (.armtimer minutes) s = .next t ∧ t.offDeadline ≠ 0 ∧
      e = minutes * 60000 - 1 ∧ u.offDeadline = t.offDeadline ∧ u.clock = s.clock + BitVec.ofNat 32 e) ∧
    (∃ (s t u : State) (minutes e : Nat), minutes = 35791 ∧ exec (.armtimer minutes) s = .next t ∧
      t.offDeadline ≠ 0 ∧ e = minutes * 60000 + 2 ^ 31 - 1 ∧ u.offDeadline = t.offDeadline ∧
      u.clock = s.clock + BitVec.ofNat 32 e) :=
  ⟨⟨acState false .cool 48 0 0 0xFFFFF000, _, acState false .cool 48 0 0x0000DA60 0x0000DA5F, 1, 59999,
      rfl, rfl, by decide, by decide, by decide, by decide⟩,
    ⟨acState false .cool 48 0 0 0, _, acState false .cool 48 0 2147460000 4294943647, 35791, 4294943647,
      rfl, rfl, by decide, by decide, by decide, by decide⟩⟩

theorem witness_TimerBeyondRangeFiresAtOnce :
    (∃ (s t u : State) (minutes e : Nat), minutes = 35792 ∧ exec (.armtimer minutes) s = .next t ∧
      t.offDeadline ≠ 0 ∧ e = minutes * 60000 - 2 ^ 31 - 1 ∧ u.offDeadline = t.offDeadline ∧
      u.clock = s.clock + BitVec.ofNat 32 e) ∧
    (∃ (s t u : State) (minutes e : Nat), minutes = 71582 ∧ exec (.armtimer minutes) s = .next t ∧
      t.offDeadline ≠ 0 ∧ e = 0 ∧ e < minutes * 60000 - 2 ^ 31 ∧ u.offDeadline = t.offDeadline ∧
      u.clock = s.clock + BitVec.ofNat 32 e) :=
  ⟨⟨acState false .cool 48 0 0 0, _, acState false .cool 48 0 0x80008E00 36351, 35792, 36351,
      rfl, rfl, by decide, by decide, by decide, by decide⟩,
    ⟨acState false .cool 48 0 0 0, _, acState false .cool 48 0 4294920000 0, 71582, 0,
      rfl, rfl, by decide, rfl, by decide, by decide, by decide⟩⟩

/-- V-T6. -/
theorem witness_ZeroDeadlineLeavesDisarmed :
    ∃ (s : State) (minutes : Nat), 0 < minutes ∧ (s.clock.toNat + minutes * 60000) % 2 ^ 32 = 0 :=
  ⟨acState false .cool 48 0 0 0xFFFF15A0, 1, by decide⟩

theorem witness_OperandlessCommandsIgnoreArg :
    ∃ cmd cmd' : Cmd, opField cmd = opField cmd' ∧ opField cmd = 4 ∧ cmd ≠ cmd' :=
  ⟨0x400000000, 0x4FFFFFFFF, by decide⟩

theorem witness_UnrecognisedTokenIsSilentNoOp :
    (∃ cmd : Cmd, opField cmd = 1 ∧ (argField cmd).toNat = 2) ∧
    (∃ cmd : Cmd, opField cmd = 2 ∧ (argField cmd).toNat = 2) ∧
    (∃ cmd : Cmd, opField cmd = 3 ∧ (argField cmd).toNat = 7) ∧
    (∃ cmd : Cmd, opField cmd = 3 ∧ (argField cmd).toNat = 4294967295) :=
  ⟨⟨0x100000002, by decide⟩, ⟨0x200000002, by decide⟩, ⟨0x300000007, by decide⟩, ⟨0x3FFFFFFFF, by decide⟩⟩

theorem witness_CommandErrorsArePrecise :
    (∀ cmd : Cmd, (serving [some cmd] (acState true .heat 55 0xA0 7 0)).fault = false ∧
      (serving [some cmd] (acState true .heat 55 0xA0 7 0)).phase = .service ∧
      (serving [some cmd] (acState true .heat 55 0xA0 7 0)).arrivals = some cmd :: []) ∧
    (opField 0x000000000).toNat = 0 ∧ 9 ≤ (opField 0x900000000).toNat ∧
    (opField 0x500000000 = 5 ∧ (argField 0x500000000).toInt ≤ 0) ∧
    (opField 0x800000003 = 8 ∧ 2 < (argField 0x800000003).toNat) :=
  ⟨fun _ => ⟨rfl, rfl, rfl⟩, by decide⟩

theorem witness_PlaylightEmitsScene : ∃ s : State, s.cfg.LightShape := ⟨acState false .cool 48 0 0 0, by decide⟩

theorem witness_UnknownSceneEmitsNothing : ∃ cmd : Cmd, opField cmd = 8 ∧ (argField cmd).toNat = 3 :=
  ⟨0x800000003, by decide⟩

theorem witness_PlaybackCounts :
    (∃ (slots : List (List Duration)) (k : Nat),
      k = (slots.filter fun f => decide (f ≠ [])).length ∧ k = 1) ∧
    (∃ (slots : List (List Duration)) (k : Nat),
      k = (slots.filter fun f => decide (f ≠ [])).length ∧ k = 3) :=
  ⟨⟨[[], [450, 0], []], 1, by decide⟩, ⟨Cfg.test.lgtOn.slots, 3, by decide⟩⟩

theorem witness_EncodedFrameLayout :
    ∃ (s t : State) (m : Mode) (temp : Temp) (fan : Byte), t = encodeFrame m temp fan s ∧ temp = 65 ∧ m = .heat :=
  ⟨acState false .cool 48 0 0 0, _, .heat, 65, 0xA0, rfl, rfl, rfl⟩

theorem witness_ChecksumsAreIdempotent :
    (∃ s : State, s.frm.wf = true ∧ s.frm ≠ []) ∧ (∃ s s' : State, s.cfg = s'.cfg ∧ s.frm ≠ s'.frm) :=
  ⟨⟨acState false .cool 48 0 0 0 |>.writeFrm 0 vF1, by decide +kernel⟩,
    ⟨acState false .cool 48 0 0 0, acState false .cool 48 0 0 0 |>.writeFrm 0 vF1, by decide +kernel⟩⟩

theorem witness_ChecksumClosedForms : (template Cfg.test .cool).length = 39 := by decide

theorem witness_OverwrittenTemplateBytesDoNotMatter :
    ∃ (s s' : State) (m : Mode), template s.cfg m ≠ template s'.cfg m ∧
      ∀ i, i < 39 → i ∉ [19, 26, 28, 38] → (template s.cfg m).getD i 0 = (template s'.cfg m).getD i 0 :=
  ⟨State.resetWith Cfg.test 0, State.resetWith { Cfg.test with tplCool := Cfg.test.tplCool.set 38 0 } 0, .cool,
    by decide, by decide⟩

theorem witness_SentFramesHaveConsistentChecksums : ∃ cfg : Cfg, cfg.WellFormed := ⟨Cfg.test, by decide⟩

theorem witness_EncodeWaveIsSingleAppends :
    (∃ s : State, s.frm.wf = true ∧ 632 ≤ s.cfg.plsCap) ∧ (∃ s : State, s.frm.wf = true ∧ s.cfg.plsCap < 632) :=
  ⟨⟨acState false .cool 48 0 0 0, by decide⟩, ⟨smallState 631 true, by decide⟩⟩

theorem witness_WaveFollowsPulseMap : vF1.length = 39 := by decide

theorem witness_BitIsMarkThenSpace : ∃ s : State, s.plsLen + 2 = s.cfg.plsCap :=
  ⟨{ acState false .cool 48 0 0 0 with plsLen := 630 }, by decide⟩

theorem witness_WaveAlternatesMarkAndSpace :
    tvOff.length = 39 ∧ (0 < 632 ∧ 0 % 2 = 0) ∧ (631 < 632 ∧ 631 % 2 = 1) := by decide

theorem witness_WaveLengthsAreFixed : ∃ s : State, s.cfg.plsCap = 632 := ⟨acState true .cool 48 0xA0 0 0, rfl⟩

theorem witness_WaveDurationCountsOnes : tvOff.length = 39 := by decide

theorem witness_NonTransmittingCommandsFrame :
    ∀ i : Instr, i ∈ [.armtimer 1, .armtimer 0, .canceltimer 0, .getstatus 0, .playlight .on,
      .playlight (.unrecognised 3)] →
      ((∃ n, i = .armtimer n) ∨ (∃ a, i = .canceltimer a) ∨ (∃ a, i = .getstatus a) ∨ (∃ x, i = .playlight x)) ∧
      ∃ t, exec i (acState true .heat 55 0xA0 7 0) = .next t := by
  intro i hi
  refine ⟨?_, exec_completes i _⟩
  simp only [List.mem_cons, List.not_mem_nil, or_false] at hi
  rcases hi with rfl | rfl | rfl | rfl | rfl | rfl <;> simp

theorem witness_TransmittingCommandsFrame :
    ∀ i : Instr, ∀ s ∈ [acState true .heat 55 0xA0 7 0, acState false .heat 55 0 7 0, smallState 631 true],
      ∃ t, exec i s = .next t := fun i s _ => exec_completes i s

/-- A next state in which each of the four registers has changed; with no room for a pulse for `SETMODE`. -/
theorem witness_RegistersAreWrittenByTheirCommands :
    (∃ t, exec (.setmode .heat) (smallState 0 false) = .next t ∧ t.x 0 ≠ (smallState 0 false).x 0 ∧
      t.x 1 ≠ (smallState 0 false).x 1 ∧ t.x 2 ≠ (smallState 0 false).x 2 ∧ t.x 3 ≠ (smallState 0 false).x 3) ∧
    (∃ t, exec (.poweroff 0) (acState true .heat 55 0xA0 7 0) = .next t ∧
      t.x 0 ≠ (acState true .heat 55 0xA0 7 0).x 0) :=
  ⟨⟨_, rfl, by decide +kernel⟩, ⟨_, execPoweroff_eq 0 _ (by decide), by decide +kernel⟩⟩

theorem witness_TemperatureStaysInRange :
    (∃ s t : State, s.tempX2.toNat = 36 ∧ step s = .next t) ∧ (∃ s t : State, s.tempX2.toNat = 64 ∧ step s = .next t) :=
  ⟨⟨serving [some 0x200000000] (acState false .cool 36 0 0 0), _, by decide, rfl⟩,
    ⟨serving [some 0x200000001] (acState false .cool 64 0 0 0), _, by decide, rfl⟩⟩

theorem inv_acState (powerOn : Bool) (mode : Mode) (offDeadline now : Time) :
    Inv (acState powerOn mode 48 0xA0 offDeadline now) where
  cfgWf := by change Cfg.test.WellFormed; decide
  tempRange := by change 36 ≤ (48 : Temp).toNat ∧ (48 : Temp).toNat ≤ 64; decide
  fanSet := fun _ => by change (0xA0 : Byte) ≠ 0; decide
  fanLegal := .inr (by change (0xA0 : Byte) ∈ Cfg.test.fanCodes; decide)
  frmWf := rfl
  frmWithin := rfl
  plsWf := rfl
  plsWithin := rfl
  plsLenLe := Nat.zero_le _
  noFault := rfl

/-- While on and expired in `POLL`: the step transmits. -/
theorem witness_StepKeepsInvariant : ∃ s t : State, Inv s ∧ step s = .next t ∧ s.expired = true :=
  ⟨acState true .heat 48 0xA0 7 7, _, inv_acState _ _ _ _, rfl, by decide⟩

theorem witness_OverflowIsUnreachable : ∃ s : State, Inv s := ⟨_, inv_acState true .heat 7 7⟩

theorem witness_StepKeepsTraceSound : ∃ s t : State, Inv s ∧ TraceSound s ∧ step s = .next t ∧ s.expired = true :=
  ⟨acState true .heat 48 0xA0 7 7, _, inv_acState _ _ _ _, (fun _ h => nomatch h : ∀ e ∈ ([] : List Event), _), rfl, by decide⟩

theorem witness_ConstantsNeverChange : ∃ s t : State, step s = .next t := ⟨acState true .heat 55 0xA0 7 0, _, rfl⟩

theorem witness_OneResponsePerServicedCommand :
    (∃ s t : State, 632 ≤ s.cfg.plsCap ∧ step s = .next t ∧
      ∃ cmd rest, s.phase = .service ∧ s.arrivals = some cmd :: rest) ∧
    (∃ s t : State, 632 ≤ s.cfg.plsCap ∧ step s = .next t ∧
      ¬ ∃ cmd rest, s.phase = .service ∧ s.arrivals = some cmd :: rest) :=
  ⟨⟨serving [some 0x600000000] (acState true .heat 55 0xA0 7 0), _, by decide, rfl, 0x600000000, [], rfl, rfl⟩,
    ⟨acState true .heat 55 0xA0 7 0, _, by decide, rfl, fun ⟨_, _, h, _⟩ => by cases h⟩⟩

/-- A `CANCELTIMER` disarms an armed timer; the other clauses' commands and an expired `TICK` complete. -/
theorem witness_OnlyListedOperationsDisarm :
    (∃ s t : State, step s = .next t ∧ s.offDeadline ≠ 0 ∧ t.offDeadline = 0) ∧
    (∃ s t : State, exec (.canceltimer 0) s = .next t) ∧
    (∃ s t : State, 632 ≤ s.cfg.plsCap ∧ exec (.poweroff 0) s = .next t) ∧
    (∃ (s t : State) (n : Int), 0 < n ∧ (s.clock.toNat + n * 60000) % 2 ^ 32 = 0 ∧ exec (.armtimer n) s = .next t) ∧
    (∃ s t : State, s.phase = .poll ∧ s.expired = true ∧ 632 ≤ s.cfg.plsCap ∧ step s = .next t) ∧
    (∃ s t : State, exec (.getstatus 0) s = .next t) :=
  ⟨⟨serving [some 0x600000000] (acState true .heat 55 0xA0 7 0), _, rfl, by decide, by decide +kernel⟩,
    ⟨acState true .heat 55 0xA0 7 0, _, rfl⟩, ⟨acState true .heat 55 0xA0 7 0, _, by decide, rfl⟩,
    ⟨acState false .cool 48 0 0 0xFFFF15A0, _, 1, by decide, by decide, rfl⟩,
    ⟨acState true .heat 55 0xA0 7 7, _, by decide, by decide, by decide, rfl⟩,
    ⟨acState true .heat 55 0xA0 7 0, _, rfl⟩⟩

/-- `SETMODE` turns on even where the transmission overflows; an expired `TICK` turns off. -/
theorem witness_OnlySetmodeTurnsOn :
    (∃ s t : State, step s = .next t ∧ s.powerOn = false ∧ t.powerOn = true) ∧
    (∃ s t : State, step s = .next t ∧ s.powerOn = true ∧ t.powerOn = false) :=
  ⟨⟨serving [some 0x100000000] (smallState 0 false), _, rfl, by decide, by decide +kernel⟩,
    ⟨acState true .heat 55 0xA0 7 7, _, rfl, by decide, by decide +kernel⟩⟩

/-- On and expired in `POLL`, with a `GETSTATUS` to come. -/
def expiredState : State :=
  { acState true .heat 55 0xA0 7 7 with arrivals := [some 0x700000000], elapse := [5, 5] }

theorem step_expiredState : step expiredState = .next
    (({ transmitted expiredState (offFrame Cfg.test) with powerOn := false, offDeadline := 0 } : State).setPhase
      .service).passTime := by
  rw [step_poll _ rfl rfl, pollStep, tick_expired _ (by decide) (by decide)]; rfl

theorem witness_ForcedOffHappensExactlyOnce :
    ∃ s t u : State, s.fault = false ∧ s.phase = .poll ∧ 632 ≤ s.cfg.plsCap ∧ s.expired = true ∧
      (∀ cmd, some cmd ∈ s.arrivals → opField cmd ≠ 5) ∧ step s = .next t ∧
      Host.Core.run core 1 t = .next u ∧ u.phase = .poll := by
  refine ⟨expiredState, _, _, rfl, rfl, by decide, by decide, ?_, step_expiredState, rfl, rfl⟩
  intro cmd h
  have : cmd = 0x700000000 := by simpa [expiredState] using h
  subst this; decide

theorem witness_PhaseDecidesExpiryAgainstCommand :
    (∀ cmd : Cmd, ∃ s : State, s.fault = false ∧ s.phase = .poll ∧ 632 ≤ s.cfg.plsCap ∧ s.expired = true ∧
      s.arrivals = some cmd :: []) ∧
    (∀ cmd : Cmd, ∃ s : State, s.fault = false ∧ s.phase = .service ∧ s.arrivals = some cmd :: [] ∧
      s.expired = true) ∧
    opField 0x200000001 = 2 ∧ opField 0x300000001 = 3 ∧ opField 0x600000000 = 6 :=
  have passed : (acState true .heat 55 0xA0 7 7).expired = true := by decide
  ⟨fun cmd => ⟨{ acState true .heat 55 0xA0 7 7 with arrivals := [some cmd] }, rfl, rfl, Nat.le_refl 632, passed, rfl⟩,
    fun cmd => ⟨serving [some cmd] (acState true .heat 55 0xA0 7 7), rfl, rfl, rfl, passed⟩, by decide⟩

theorem witness_OverflowLatchesAndHalts :
    (∃ s : State, s.fault = true) ∧ (∃ s : State, s.cfg.plsCap = 0) ∧
    (∃ s : State, s.cfg.plsCap = 631 ∧ s.powerOn = true) ∧
    (∃ s : State, s.cfg.plsCap = 631 ∧ s.fault = false ∧ s.phase = .poll ∧ s.expired = true) :=
  ⟨⟨(smallState 0 true).setFault, rfl⟩, ⟨smallState 0 true, rfl⟩, ⟨smallState 631 true, rfl, rfl⟩,
    ⟨{ smallState 631 true with offDeadline := 0xFFFFFFFF }, by decide⟩⟩

/-- An `ARMTIMER` of one minute, and a `STEPTEMP` while on whose step leaves the deadline passed. -/
theorem witness_CommandServicedBeforeExpiry :
    (∃ (s : State) (cmd : Cmd), s.fault = false ∧ s.phase = .service ∧ s.arrivals = some cmd :: [] ∧
      s.expired = true ∧ opField cmd = 5 ∧ (argField cmd).toInt = 1) ∧
    (∃ (s t : State) (cmd : Cmd), s.fault = false ∧ s.phase = .service ∧ s.arrivals = some cmd :: [] ∧
      s.expired = true ∧ opField cmd = 2 ∧ (argField cmd).toNat = 1 ∧ s.powerOn = true ∧ 632 ≤ s.cfg.plsCap ∧
      step s = .next t ∧ t.expired = true) :=
  ⟨⟨serving [some 0x500000001] (acState true .heat 55 0xA0 7 7), 0x500000001, by decide⟩,
    ⟨serving [some 0x200000001] (acState true .heat 55 0xA0 7 7), _, 0x200000001, rfl, rfl, rfl, by decide, by decide,
      by decide, rfl, by decide, rfl, by decide +kernel⟩⟩

theorem witness_TraceIndependentOfResetSettings :
    (∃ s s' t : State, AlikeButForUnsentSettings s s' ∧ s ≠ s' ∧ step s = .next t) ∧
    (∃ t : State, Host.Core.run core 1
      { State.resetWith Cfg.test 0 with elapse := [5], arrivals := [some 0x100000001] } = .next t) :=
  ⟨⟨acState false .cool 48 0 0 0, { acState false .heat 50 0 0 0 with
        cfg := { Cfg.test with resetMode := .heat, resetTempX2 := 50 } }, _,
      ⟨.heat, 50, .heat, 50, [], rfl, fun h => (by cases h), rfl⟩, by decide, rfl⟩, ⟨_, rfl⟩⟩

end Sys2Proof.Tests
end

section
namespace Sys2Proof.Machine

/-! ### What a step can do

A step of the loop is cut into three parts: the writes of the registers, the emission of events, and the bookkeeping of
the loop around them. Each is said once here; what every step keeps is then shown part by part. -/

/-- `t` is `s` but for the loop's position, the clock, the inputs and the responses. -/
def BookkeepingOnly (s t : State) : Prop :=
  ∃ phase clock elapse stepNo arrivals responses,
    t = { s with
          phase := phase, clock := clock, elapse := elapse, stepNo := stepNo, arrivals := arrivals
          responses := responses }

theorem BookkeepingOnly.refl (s : State) : BookkeepingOnly s s := ⟨_, _, _, _, _, _, rfl⟩

theorem BookkeepingOnly.trans {s t u : State} (hst : BookkeepingOnly s t) (htu : BookkeepingOnly t u) :
    BookkeepingOnly s u := by
  obtain ⟨_, _, _, _, _, _, rfl⟩ := hst
  obtain ⟨_, _, _, _, _, _, rfl⟩ := htu
  exact ⟨_, _, _, _, _, _, rfl⟩

theorem respond_bookkeeping (code : ResponseCode) (payload : Option StatusWord) (s : State) :
    BookkeepingOnly s (s.respond code payload) := ⟨_, _, _, _, _, _, rfl⟩

theorem respondOk_bookkeeping (s : State) : BookkeepingOnly s s.respondOk := respond_bookkeeping _ _ s

theorem setArrivals_bookkeeping (l : List (Option Cmd)) (s : State) : BookkeepingOnly s (s.setArrivals l) :=
  ⟨_, _, _, _, _, _, rfl⟩

theorem endStep_bookkeeping (p : Phase) (s : State) : BookkeepingOnly s (endStep p s) := by
  unfold endStep
  split <;> exact ⟨_, _, _, _, _, _, rfl⟩

/-- The register writes of a forced OFF (40 R123, 44 R212). -/
def turnOff (s : State) : State := (s.setPowerOn false).setOffDeadline 0

/-- The register writes of a command, each under the condition on its operand (40 R120 to R125). -/
inductive RegisterWrites (s : State) : Instr → State → Prop where
  | unchanged (i : Instr) : RegisterWrites s i s
  | setmode {token : ModeToken} {m : Mode} (h : modeOperand token = some m) :
      RegisterWrites s (.setmode token) (setmodeWrites m s)
  | steptemp {token : DirectionToken} {delta : Int} (h : directionOperand token = some delta) :
      RegisterWrites s (.steptemp token) (s.setTempX2 (steppedTemp s.tempX2 delta))
  | setfan {token : FanToken} {f : Byte} (h : fanOperand s.cfg token = some f) :
      RegisterWrites s (.setfan token) (s.setFanHex f)
  | poweroff (arg : Arg) : RegisterWrites s (.poweroff arg) (turnOff s)
  | armtimer {minutes : Int} (h : 0 < minutes) :
      RegisterWrites s (.armtimer minutes) (s.setOffDeadline (deadlineAfter s.clock minutes))
  | canceltimer (arg : Arg) : RegisterWrites s (.canceltimer arg) (s.setOffDeadline 0)

/-- What a step emits once its registers are written: nothing, one AC frame, one OFF frame, one light scene, or, where
the pulse buffer is too small for a frame, nothing but the latch (60 R234). -/
inductive Emission (s : State) : State → Prop where
  | silent : Emission s s
  | acFrame (hcap : 632 ≤ s.cfg.plsCap) :
      Emission s (transmitted s (acFrame s.cfg s.mode s.tempX2 s.fanHex))
  | offFrame (hcap : 632 ≤ s.cfg.plsCap) : Emission s (transmitted s (offFrame s.cfg))
  | scene (scene : Scene) : Emission s (s.emitAll (playScene (s.cfg.scene scene).slots))
  | overflow (hcap : s.cfg.plsCap < 632) (m : Memory 8) (p : Memory 16) (n : Nat) :
      Emission s { s with frm := m, pls := p, plsLen := n, fault := true }

theorem Emission.of_abandoned {s : State} {r : Run} (hcap : s.cfg.plsCap < 632) (h : AbandonedFrom s r)
    (f : State → State) : Emission s (r.finish f) := by
  obtain ⟨m, p, n, rfl, -, -⟩ := h
  exact .overflow hcap m p n

section
variable {f : State → State} (hf : ∀ v, BookkeepingOnly v (f v))
include hf

theorem transmitAC_emission (s : State) :
    ∃ v, Emission s v ∧ BookkeepingOnly v ((transmitAC s).finish f) := by
  by_cases hcap : 632 ≤ s.cfg.plsCap
  · rw [transmitAC_eq s hcap]
    exact ⟨_, .acFrame hcap, hf _⟩
  · have hcap := Nat.lt_of_not_le hcap
    exact ⟨_, .of_abandoned hcap (transmitAC_overflow s hcap) f, .refl _⟩

theorem transmitIfOn_emission (s : State) :
    ∃ v, Emission s v ∧ BookkeepingOnly v ((transmitIfOn s).finish f) := by
  unfold transmitIfOn
  split
  · exact transmitAC_emission hf s
  · exact ⟨_, .silent, hf s⟩

theorem forcedOff_emission (s : State) :
    ∃ u v, (u = s ∨ u = turnOff s) ∧ Emission u v ∧ BookkeepingOnly v ((forcedOff s).finish f) := by
  by_cases hcap : 632 ≤ s.cfg.plsCap
  · rw [forcedOff_eq s hcap]
    exact ⟨_, _, .inr rfl, .offFrame hcap, hf _⟩
  · have hcap := Nat.lt_of_not_le hcap
    exact ⟨_, _, .inl rfl, .of_abandoned hcap (forcedOff_overflow s hcap) f, .refl _⟩

end

/-- What a command does: its register writes, then its emission, then the response. -/
def CommandEffect (i : Instr) (s t : State) : Prop :=
  ∃ u v, RegisterWrites s i u ∧ Emission u v ∧ BookkeepingOnly v t

theorem RegisterWrites.silent {i : Instr} {s u t : State} (hw : RegisterWrites s i u) (hb : BookkeepingOnly u t) :
    CommandEffect i s t :=
  ⟨u, u, hw, .silent, hb⟩

theorem RegisterWrites.emitting {i : Instr} {s u t : State} (hw : RegisterWrites s i u)
    (he : ∃ v, Emission u v ∧ BookkeepingOnly v t) : CommandEffect i s t := by
  obtain ⟨v, he, hb⟩ := he
  exact ⟨u, v, hw, he, hb⟩

theorem execSetmode_effect {token : ModeToken} {s t : State} (h : execSetmode token s = .next t) :
    CommandEffect (.setmode token) s t := by
  unfold execSetmode at h
  cases hm : modeOperand token with
  | none =>
    rw [hm] at h; cases h
    exact (RegisterWrites.unchanged _).silent (respondOk_bookkeeping s)
  | some m =>
    rw [hm] at h; cases h
    exact (RegisterWrites.setmode hm).emitting (transmitAC_emission respondOk_bookkeeping _)

theorem execSteptemp_effect {token : DirectionToken} {s t : State} (h : execSteptemp token s = .next t) :
    CommandEffect (.steptemp token) s t := by
  unfold execSteptemp at h
  cases hd : directionOperand token with
  | none =>
    rw [hd] at h; cases h
    exact (RegisterWrites.unchanged _).silent (respondOk_bookkeeping s)
  | some delta =>
    rw [hd] at h; cases h
    exact (RegisterWrites.steptemp hd).emitting (transmitIfOn_emission respondOk_bookkeeping _)

theorem execSetfan_effect {token : FanToken} {s t : State} (h : execSetfan token s = .next t) :
    CommandEffect (.setfan token) s t := by
  unfold execSetfan at h
  cases hf : fanOperand s.cfg token with
  | none =>
    rw [hf] at h; cases h
    exact (RegisterWrites.unchanged _).silent (respondOk_bookkeeping s)
  | some f =>
    rw [hf] at h; cases h
    exact (RegisterWrites.setfan hf).emitting (transmitIfOn_emission respondOk_bookkeeping _)

theorem execPoweroff_effect {arg : Arg} {s t : State} (h : execPoweroff arg s = .next t) :
    CommandEffect (.poweroff arg) s t := by
  cases h
  obtain ⟨u, v, rfl | rfl, he, hb⟩ := forcedOff_emission respondOk_bookkeeping s
  · exact (RegisterWrites.unchanged _).emitting ⟨v, he, hb⟩
  · exact (RegisterWrites.poweroff arg).emitting ⟨v, he, hb⟩

theorem execArmtimer_effect {minutes : Int} {s t : State} (h : execArmtimer minutes s = .next t) :
    CommandEffect (.armtimer minutes) s t := by
  unfold execArmtimer at h
  split at h
  · cases h
    exact (RegisterWrites.unchanged _).silent (respond_bookkeeping _ _ s)
  · cases h
    exact (RegisterWrites.armtimer (by omega)).silent (respondOk_bookkeeping _)

theorem execPlaylight_effect {token : SceneToken} {s t : State} (h : execPlaylight token s = .next t) :
    CommandEffect (.playlight token) s t := by
  unfold execPlaylight at h
  cases hs : sceneOperand token with
  | none =>
    rw [hs] at h; cases h
    exact (RegisterWrites.unchanged _).silent (respond_bookkeeping _ _ s)
  | some scene =>
    rw [hs] at h; cases h
    exact (RegisterWrites.unchanged _).emitting ⟨_, .scene scene, respondOk_bookkeeping _⟩

/-- What any command can do (44 R217). -/
theorem exec_effect {i : Instr} {s t : State} (h : exec i s = .next t) : CommandEffect i s t := by
  cases i with
  | setmode token => exact execSetmode_effect h
  | steptemp token => exact execSteptemp_effect h
  | setfan token => exact execSetfan_effect h
  | poweroff arg => exact execPoweroff_effect h
  | armtimer minutes => exact execArmtimer_effect h
  | canceltimer arg => cases h; exact (RegisterWrites.canceltimer arg).silent (respondOk_bookkeeping _)
  | getstatus arg => cases h; exact (RegisterWrites.unchanged _).silent (respond_bookkeeping _ _ s)
  | playlight token => exact execPlaylight_effect h

/-- The register writes `s₀` to `u` of a step from `s`, with the phase and the input that bring each about. -/
inductive StepWrites (s s₀ : State) : State → Prop where
  | unchanged : StepWrites s s₀ s₀
  | expiry (hp : s.phase = .poll) (he : s.expired = true) : StepWrites s s₀ (turnOff s₀)
  | command {cmd : Cmd} {rest : List (Option Cmd)} {i : Instr} {u : State} (hp : s.phase = .service)
      (ha : s.arrivals = some cmd :: rest) (hd : decode cmd = .ok i) (hw : RegisterWrites s₀ i u) :
      StepWrites s s₀ u

/-- What a step does: it takes its input, writes registers, emits, then answers and moves on. -/
def StepEffect (s t : State) : Prop :=
  ∃ s₀ u v, BookkeepingOnly s s₀ ∧ StepWrites s s₀ u ∧ Emission u v ∧ BookkeepingOnly v t

theorem StepEffect.of_bookkeeping {s t : State} (h : BookkeepingOnly s t) : StepEffect s t :=
  ⟨t, t, t, h, .unchanged, .silent, .refl t⟩

theorem pollStep_effect {s : State} (hp : s.phase = .poll) : StepEffect s (pollStep s) := by
  unfold pollStep tick
  split
  next he =>
    obtain ⟨u, v, hu, hem, hb⟩ := forcedOff_emission (f := id) BookkeepingOnly.refl s
    have hw : StepWrites s s u := by
      obtain rfl | rfl := hu
      · exact .unchanged
      · exact .expiry hp he
    exact ⟨s, u, v, .refl s, hw, hem, hb.trans (endStep_bookkeeping _ _)⟩
  next => exact .of_bookkeeping (endStep_bookkeeping _ _)

/-- A serviced step that answers a next state ends a command that did. -/
theorem endService_eq_next {o : Host.Outcome State Fault Refusal} {t : State} (h : endService o = .next t) :
    ∃ v, o = .next v ∧ t = endStep .poll v := by
  cases o with
  | next v => cases h; exact ⟨v, rfl, rfl⟩
  | fault r => cases h
  | refused r => cases h

theorem serviceStep_effect {s t : State} (hp : s.phase = .service) (h : serviceStep s = .next t) :
    StepEffect s t := by
  unfold serviceStep at h
  split at h
  next => cases h; exact .of_bookkeeping (endStep_bookkeeping _ _)
  next =>
    cases h
    exact .of_bookkeeping ((setArrivals_bookkeeping _ s).trans (endStep_bookkeeping _ _))
  next cmd rest ha =>
    obtain ⟨w, hw, rfl⟩ := endService_eq_next h
    have hs₀ := setArrivals_bookkeeping rest s
    cases hd : decode cmd with
    | ok i =>
      rw [execute_ok cmd i _ hd] at hw
      obtain ⟨u, v, hr, he, hb⟩ := exec_effect hw
      exact ⟨_, u, v, hs₀, .command hp ha hd hr, he, hb.trans (endStep_bookkeeping _ _)⟩
    | error e =>
      rw [execute_error cmd e _ hd] at hw
      cases hw
      exact .of_bookkeeping ((hs₀.trans (respond_bookkeeping _ _ _)).trans (endStep_bookkeeping _ _))

/-- What any step can do (44 R216). -/
theorem step_effect {s t : State} (h : step s = .next t) : StepEffect s t := by
  unfold step loopStep at h
  split at h
  · cases h
  · split at h
    next hp => cases h; exact pollStep_effect hp
    next hp => exact serviceStep_effect hp h

end Sys2Proof.Machine
end

section
namespace Sys2Proof.Machine

/-- A property that each of the three parts of a step keeps is kept by every step. -/
theorem step_preserves {P : State → Prop} (hb : ∀ {s t : State}, BookkeepingOnly s t → P s → P t)
    (hw : ∀ {s u : State} {i : Instr}, RegisterWrites s i u → P s → P u)
    (he : ∀ {s v : State}, Emission s v → P s → P v) {s t : State} (h : step s = .next t) (hs : P s) : P t := by
  obtain ⟨s₀, u, v, hb₀, hsw, hem, hb₁⟩ := step_effect h
  have h₀ : P s₀ := hb hb₀ hs
  have hu : P u := by
    cases hsw with
    | unchanged => exact h₀
    | expiry => exact hw (.poweroff 0) h₀
    | command _ _ _ hr => exact hw hr h₀
  exact hb hb₁ (he hem hu)

/-! ### What each part of a step keeps -/

theorem BookkeepingOnly.cfg_eq {s t : State} (h : BookkeepingOnly s t) : t.cfg = s.cfg := by
  obtain ⟨_, _, _, _, _, _, rfl⟩ := h; rfl

theorem BookkeepingOnly.trace_eq {s t : State} (h : BookkeepingOnly s t) : t.trace = s.trace := by
  obtain ⟨_, _, _, _, _, _, rfl⟩ := h; rfl

theorem BookkeepingOnly.x_eq {s t : State} (h : BookkeepingOnly s t) : t.x = s.x := by
  obtain ⟨_, _, _, _, _, _, rfl⟩ := h; rfl

theorem BookkeepingOnly.tempX2_eq {s t : State} (h : BookkeepingOnly s t) : t.tempX2 = s.tempX2 := by
  obtain ⟨_, _, _, _, _, _, rfl⟩ := h; rfl

theorem BookkeepingOnly.powerOn_eq {s t : State} (h : BookkeepingOnly s t) : t.powerOn = s.powerOn := by
  obtain ⟨_, _, _, _, _, _, rfl⟩ := h; rfl

theorem Emission.cfg_eq {s v : State} (h : Emission s v) : v.cfg = s.cfg := by cases h <;> rfl

theorem Emission.x_eq {s v : State} (h : Emission s v) : v.x = s.x := by cases h <;> rfl

theorem Emission.tempX2_eq {s v : State} (h : Emission s v) : v.tempX2 = s.tempX2 := by cases h <;> rfl

theorem Emission.powerOn_eq {s v : State} (h : Emission s v) : v.powerOn = s.powerOn := by cases h <;> rfl

@[simp] theorem setmodeWrites_cfg (m : Mode) (s : State) : (setmodeWrites m s).cfg = s.cfg := by
  rw [setmodeWrites_eq]

@[simp] theorem setmodeWrites_trace (m : Mode) (s : State) : (setmodeWrites m s).trace = s.trace := by
  rw [setmodeWrites_eq]

@[simp] theorem setmodeWrites_tempX2 (m : Mode) (s : State) : (setmodeWrites m s).tempX2 = defaultTemp m := by
  rw [setmodeWrites_eq]

theorem RegisterWrites.cfg_eq {s u : State} {i : Instr} (h : RegisterWrites s i u) : u.cfg = s.cfg := by
  cases h with
  | setmode => exact setmodeWrites_cfg _ s
  | unchanged | steptemp | setfan | poweroff | armtimer | canceltimer => rfl

theorem RegisterWrites.trace_eq {s u : State} {i : Instr} (h : RegisterWrites s i u) : u.trace = s.trace := by
  cases h with
  | setmode => exact setmodeWrites_trace _ s
  | unchanged | steptemp | setfan | poweroff | armtimer | canceltimer => rfl

/-! ### The temperature -/

/-- `36 <= t <= 64` (10_state.md R22). -/
def TempInRange (t : Temp) : Prop := 36 ≤ t.toNat ∧ t.toNat ≤ 64

theorem clamp_temp_bounds (v : Int) : tempMin ≤ clamp v tempMin tempMax ∧ clamp v tempMin tempMax ≤ tempMax := by
  unfold clamp tempMin tempMax
  split
  · omega
  · split <;> omega

theorem steppedTemp_inRange (t : Temp) (delta : Int) : TempInRange (steppedTemp t delta) := by
  obtain ⟨hlo, hhi⟩ := clamp_temp_bounds (t.toNat + delta)
  simp only [tempMin, tempMax] at hlo hhi
  simp only [TempInRange, steppedTemp, tempMin, tempMax, BitVec.toNat_ofInt]
  omega

theorem defaultTemp_inRange (m : Mode) : TempInRange (defaultTemp m) := by
  cases m <;> simp [TempInRange, defaultTemp]

theorem RegisterWrites.tempInRange {s u : State} {i : Instr} (h : RegisterWrites s i u) (hs : TempInRange s.tempX2) :
    TempInRange u.tempX2 := by
  cases h with
  | setmode => rw [setmodeWrites_tempX2]; exact defaultTemp_inRange _
  | steptemp => exact steppedTemp_inRange _ _
  | unchanged | setfan | poweroff | armtimer | canceltimer => exact hs

/-! ### The invariant -/

theorem fanOperand_mem_fanCodes {cfg : Cfg} {token : FanToken} {f : Byte} (h : fanOperand cfg token = some f) :
    f ∈ cfg.fanCodes := by
  cases token <;> cases h <;> simp [Cfg.fanCodes]

/-- A fan code is never the unset value (R6, R26). -/
theorem fanCode_ne_zero {cfg : Cfg} {f : Byte} (hc : cfg.WellFormed) (hf : f ∈ cfg.fanCodes) : f ≠ 0 := by
  obtain ⟨-, -, -, -, ⟨-, hzero, -⟩, -⟩ := hc
  rintro rfl
  exact hzero hf

/-- The fan byte `SETMODE` leaves is a fan code (R24, 40 R120). -/
theorem Inv.defaultedFan_mem {s : State} (hs : Inv s) :
    (if s.fanHex = 0 then s.cfg.fanAuto else s.fanHex) ∈ s.cfg.fanCodes := by
  split
  next => exact fanOperand_mem_fanCodes (token := .auto) rfl
  next h => exact hs.fanLegal.resolve_left h

theorem BookkeepingOnly.inv {s t : State} (h : BookkeepingOnly s t) (hs : Inv s) : Inv t := by
  obtain ⟨_, _, _, _, _, _, rfl⟩ := h
  exact { hs with }

theorem RegisterWrites.inv {s u : State} {i : Instr} (h : RegisterWrites s i u) (hs : Inv s) : Inv u := by
  have htemp : TempInRange u.tempX2 := h.tempInRange hs.tempRange
  cases h with
  | unchanged => exact hs
  | setmode =>
    have hfan := hs.defaultedFan_mem
    rw [setmodeWrites_eq] at htemp ⊢
    exact { hs with tempRange := htemp, fanSet := fun _ => fanCode_ne_zero hs.cfgWf hfan, fanLegal := .inr hfan }
  | steptemp => exact { hs with tempRange := htemp }
  | setfan hf =>
    have hfan := fanOperand_mem_fanCodes hf
    exact { hs with fanSet := fun _ => fanCode_ne_zero hs.cfgWf hfan, fanLegal := .inr hfan }
  | poweroff => exact { hs with fanSet := fun hon => by cases hon }
  | armtimer => exact { hs with }
  | canceltimer => exact { hs with }

theorem Inv.plsCap_ge {s : State} (hs : Inv s) : 632 ≤ s.cfg.plsCap := by
  obtain ⟨-, -, -, -, -, -, hcap, -, -⟩ := hs.cfgWf
  exact hcap

/-- A transmission of a 39-byte frame keeps the invariant: the frame fits `FRM` and its pulse train fits `PLS`. -/
theorem Inv.transmitted {s : State} {frame : List Byte} (hs : Inv s) (hf : frame.length = 39) :
    Inv (transmitted s frame) :=
  have hw := length_wave frame hf
  { hs with
    frmWf := wf_listed_beyond frame s.frm 39 hf hs.frmWf
    frmWithin := within_listed_beyond frame s.frm 39 39 hf le_rfl hs.frmWithin
    plsWf := wf_listed_beyond (wave frame) s.pls 632 hw hs.plsWf
    plsWithin := within_listed_beyond (wave frame) s.pls 632 s.cfg.plsCap hw hs.plsCap_ge hs.plsWithin
    plsLenLe := hs.plsCap_ge }

theorem Emission.inv {s v : State} (h : Emission s v) (hs : Inv s) : Inv v := by
  cases h with
  | silent => exact hs
  | acFrame => exact hs.transmitted (length_acFrame _ _ _ _)
  | offFrame => exact hs.transmitted (length_offFrame _)
  | scene => exact { hs with }
  | overflow hcap => exact absurd hs.plsCap_ge (Nat.not_le_of_lt hcap)

/-- Settles O47: register writes keep the registers legal, and a transmission stays inside its buffers. -/
theorem stepKeepsInvariant : Obligations.StepKeepsInvariant := by
  intro s t hs h
  exact step_preserves BookkeepingOnly.inv RegisterWrites.inv Emission.inv h hs

end Sys2Proof.Machine
end

section
namespace Sys2Proof.Machine

/-! ### The trace -/

theorem acFrame_take (cfg : Cfg) (m : Mode) (t : Temp) (f : Byte) :
    (acFrame cfg m t f).take 19 = (List.range' 0 19).map (payloadByte cfg m t f) := by
  apply List.ext_getElem
  · simp
  · intro i h₁ h₂
    have hi : i < 19 := by simpa using h₂
    simp [acFrame, show i ≠ 19 by omega, show i ≠ 38 by omega]

theorem acFrame_drop_take (cfg : Cfg) (m : Mode) (t : Temp) (f : Byte) :
    ((acFrame cfg m t f).drop 20).take 18 = (List.range' 20 18).map (payloadByte cfg m t f) := by
  apply List.ext_getElem
  · simp
  · intro i h₁ h₂
    have hi : i < 18 := by simpa using h₂
    simp [acFrame, show 20 + i ≠ 19 by omega, show 20 + i ≠ 38 by omega]

/-- The encoded AC frame carries the checksums of its own bytes (41 R159). -/
theorem acFrame_checksums (cfg : Cfg) (m : Mode) (t : Temp) (f : Byte) : ChecksumsConsistent (acFrame cfg m t f) := by
  refine ⟨length_acFrame _ _ _ _, ?_, ?_⟩
  · rw [acFrame_take]; simp [acFrame]
  · rw [acFrame_drop_take]; simp [acFrame]

/-- The OFF frame carries the checksums its template is stored with (R6, 41 R157). -/
theorem offFrame_checksums {cfg : Cfg} (h : cfg.WellFormed) : ChecksumsConsistent (offFrame cfg) := by
  obtain ⟨-, -, hlen, hsums, -⟩ := h
  rw [offFrame, romRead_eq_self _ _ hlen]
  exact ⟨hlen, hsums⟩

theorem isAcSend_acSend {frame : List Byte} (h : ChecksumsConsistent frame) : IsAcSend (acSend frame) :=
  ⟨frame, h, rfl⟩

/-- An event of the light player for `slots`: a non-empty slot sent at 38 kHz, or one of the four delays. -/
def IsSlotEvent (slots : List (List Duration)) (e : Event) : Prop :=
  (∃ f, f ∈ slots ∧ f ≠ [] ∧ e = .send f carrierKHz) ∨ ∃ ms, ms ∈ [lSettleMs, lFrameMs, lRepMs, lTailMs] ∧ e = .delay ms

theorem isSlotEvent_delay {slots : List (List Duration)} {ms : Nat} (h : ms ∈ [lSettleMs, lFrameMs, lRepMs, lTailMs]) :
    IsSlotEvent slots (.delay ms) :=
  .inr ⟨ms, h, rfl⟩

theorem IsSlotEvent.cons {f : List Duration} {rest : List (List Duration)} {e : Event} (h : IsSlotEvent rest e) :
    IsSlotEvent (f :: rest) e :=
  h.imp_left fun ⟨g, hg, hne⟩ => ⟨g, List.mem_cons_of_mem _ hg, hne⟩

theorem isSlotEvent_of_mem_optional_delay {slots : List (List Duration)} {c : Prop} [Decidable c] {ms : Nat} {e : Event}
    (hms : ms ∈ [lSettleMs, lFrameMs, lRepMs, lTailMs]) (he : e ∈ if c then [Event.delay ms] else []) :
    IsSlotEvent slots e := by
  split at he
  · rw [List.mem_singleton.mp he]; exact isSlotEvent_delay hms
  · cases he

theorem isSlotEvent_of_mem_playSlots {slots : List (List Duration)} {sent : Nat} {e : Event}
    (h : e ∈ playSlots sent slots) : IsSlotEvent slots e := by
  induction slots generalizing sent with
  | nil => cases h
  | cons f rest ih =>
    unfold playSlots at h
    split at h
    next hlen =>
      rcases List.mem_append.mp h with hdelay | hmem
      · exact isSlotEvent_of_mem_optional_delay (by simp) hdelay
      · rcases List.mem_cons.mp hmem with rfl | hrest
        · exact .inl ⟨f, List.mem_cons_self, List.ne_nil_of_length_pos hlen, rfl⟩
        · exact (ih hrest).cons
    next => exact (ih h).cons

theorem isSlotEvent_of_mem_playRepetition {slots : List (List Duration)} {r : Nat} {e : Event}
    (h : e ∈ playRepetition slots r) : IsSlotEvent slots e := by
  rcases List.mem_append.mp h with hdelay | hslot
  · exact isSlotEvent_of_mem_optional_delay (by simp) hdelay
  · exact isSlotEvent_of_mem_playSlots hslot

/-- Every event of a scene is a delay or one of its non-empty slots (43 R190). -/
theorem isSlotEvent_of_mem_playScene {slots : List (List Duration)} {e : Event} (h : e ∈ playScene slots) :
    IsSlotEvent slots e := by
  rcases List.mem_append.mp h with hbody | htail
  · rcases List.mem_cons.mp hbody with rfl | hrep
    · exact isSlotEvent_delay (by simp)
    · obtain ⟨r, -, he⟩ := List.mem_flatMap.mp hrep
      exact isSlotEvent_of_mem_playRepetition he
  · rw [List.mem_singleton.mp htail]; exact isSlotEvent_delay (by simp)

theorem slots_subset_lightFrames (cfg : Cfg) (scene : Scene) : (cfg.scene scene).slots ⊆ lightFrames cfg := by
  intro f hf
  cases scene with
  | on => exact List.mem_append_left _ (List.mem_append_left _ hf)
  | night => exact List.mem_append_left _ (List.mem_append_right _ hf)
  | off => exact List.mem_append_right _ hf

theorem isLightEvent_of_mem_playScene {cfg : Cfg} {scene : Scene} {e : Event}
    (h : e ∈ playScene (cfg.scene scene).slots) : IsLightEvent cfg e :=
  (isSlotEvent_of_mem_playScene h).imp_left fun ⟨f, hf, hne⟩ => ⟨f, slots_subset_lightFrames cfg scene hf, hne⟩

theorem BookkeepingOnly.traceSound {s t : State} (h : BookkeepingOnly s t) (hs : TraceSound s) : TraceSound t := by
  unfold TraceSound
  rw [h.trace_eq, h.cfg_eq]
  exact hs

theorem RegisterWrites.traceSound {s u : State} {i : Instr} (h : RegisterWrites s i u) (hs : TraceSound s) :
    TraceSound u := by
  unfold TraceSound
  rw [h.trace_eq, h.cfg_eq]
  exact hs

theorem TraceSound.transmitted {s : State} {frame : List Byte} (hs : TraceSound s) (hf : ChecksumsConsistent frame) :
    TraceSound (transmitted s frame) :=
  List.forall_mem_append.mpr ⟨hs, List.forall_mem_singleton.mpr (.inl (isAcSend_acSend hf))⟩

theorem Emission.traceSound {s v : State} (h : Emission s v) (hc : s.cfg.WellFormed) (hs : TraceSound s) :
    TraceSound v := by
  cases h with
  | silent => exact hs
  | acFrame => exact hs.transmitted (acFrame_checksums _ _ _ _)
  | offFrame => exact hs.transmitted (offFrame_checksums hc)
  | scene => exact List.forall_mem_append.mpr ⟨hs, fun _ he => .inr (isLightEvent_of_mem_playScene he)⟩
  | overflow => exact hs

/-- Settles O49: the only events are those of the two AC frames and of the light player. The invariant is kept along
with the trace, since the OFF frame is consistent only under a well-formed `CFG`. -/
theorem stepKeepsTraceSound : Obligations.StepKeepsTraceSound := by
  intro s t hs htrace h
  have hboth : Inv t ∧ TraceSound t :=
    step_preserves (P := fun s => Inv s ∧ TraceSound s) (fun hb ⟨hi, ht⟩ => ⟨hb.inv hi, hb.traceSound ht⟩)
      (fun hw ⟨hi, ht⟩ => ⟨hw.inv hi, hw.traceSound ht⟩)
      (fun he ⟨hi, ht⟩ => ⟨he.inv hi, he.traceSound hi.cfgWf ht⟩) h ⟨hs, htrace⟩
  exact hboth.2

/-! ### Registers and constants -/

/-- Settles O50: each part of a step keeps `cfg`. -/
theorem constantsNeverChange : Obligations.ConstantsNeverChange := by
  intro s t h
  exact step_preserves (P := fun t => t.cfg = s.cfg) (fun hb ht => hb.cfg_eq.trans ht)
    (fun hw ht => hw.cfg_eq.trans ht) (fun he ht => he.cfg_eq.trans ht) h rfl

/-- A command leaves the four AC registers as its register writes made them. -/
theorem exec_registers {i : Instr} {s t : State} (h : exec i s = .next t) : ∃ u, RegisterWrites s i u ∧ t.x = u.x := by
  obtain ⟨u, v, hw, he, hb⟩ := exec_effect h
  exact ⟨u, hw, hb.x_eq.trans he.x_eq⟩

/-- Settles O43, from the register writes of each command. -/
theorem registersAreWrittenByTheirCommands : Obligations.RegistersAreWrittenByTheirCommands := by
  intro s t i h
  obtain ⟨u, hw, hx⟩ := exec_registers h
  rw [hx]
  cases hw with
  | setmode =>
    refine ⟨fun _ => .inl ⟨_, rfl⟩, fun _ => .inl ⟨_, rfl⟩, fun _ => ⟨_, rfl⟩, fun hfan => .inl ⟨⟨_, rfl⟩, ?_⟩⟩
    by_contra hset
    have hset : s.fanHex ≠ 0 := hset
    rw [setmodeWrites_eq] at hfan
    exact hfan (if_neg hset)
  | steptemp => exact ⟨absurd rfl, fun _ => .inr ⟨_, rfl⟩, absurd rfl, absurd rfl⟩
  | setfan => exact ⟨absurd rfl, absurd rfl, absurd rfl, fun _ => .inr ⟨_, rfl⟩⟩
  | poweroff arg => exact ⟨fun _ => .inr ⟨arg, rfl⟩, absurd rfl, absurd rfl, absurd rfl⟩
  | unchanged | armtimer | canceltimer => exact ⟨absurd rfl, absurd rfl, absurd rfl, absurd rfl⟩

/-- A step leaves `powerOn` as its register writes made it. -/
theorem step_powerOn {s t : State} (h : step s = .next t) :
    ∃ s₀ u, s₀.powerOn = s.powerOn ∧ StepWrites s s₀ u ∧ t.powerOn = u.powerOn := by
  obtain ⟨s₀, u, v, hb₀, hw, he, hb⟩ := step_effect h
  exact ⟨s₀, u, hb₀.powerOn_eq, hw, hb.powerOn_eq.trans he.powerOn_eq⟩

/-- Only a recognised `SETMODE` turns the block on (R21). -/
theorem RegisterWrites.eq_setmode_of_turnsOn {s u : State} {i : Instr} (h : RegisterWrites s i u)
    (hs : s.powerOn = false) (hu : u.powerOn = true) : i = .setmode .heat ∨ i = .setmode .cool := by
  cases h with
  | @setmode token m hm =>
    cases token with
    | heat => exact .inl rfl
    | cool => exact .inr rfl
    | unrecognised arg => cases hm
  | poweroff => cases hu
  | unchanged | steptemp | setfan | armtimer | canceltimer => exact absurd (hs.symm.trans hu) (by decide)

/-- Of the commands only `POWEROFF` turns the block off (R21). -/
theorem RegisterWrites.eq_poweroff_of_turnsOff {s u : State} {i : Instr} (h : RegisterWrites s i u)
    (hs : s.powerOn = true) (hu : u.powerOn = false) : ∃ arg, i = .poweroff arg := by
  cases h with
  | setmode => rw [setmodeWrites_eq] at hu; cases hu
  | poweroff arg => exact ⟨arg, rfl⟩
  | unchanged | steptemp | setfan | armtimer | canceltimer => exact absurd (hs.symm.trans hu) (by decide)

/-- Settles O53, from the register writes of a step. -/
theorem onlySetmodeTurnsOn : Obligations.OnlySetmodeTurnsOn := by
  intro s t h
  obtain ⟨s₀, u, hs₀, hw, ht⟩ := step_powerOn h
  rw [← hs₀, ht]
  cases hw with
  | unchanged => exact ⟨fun hoff hon => absurd (hoff.symm.trans hon) (by decide),
      fun hon hoff => absurd (hon.symm.trans hoff) (by decide)⟩
  | expiry hp he => exact ⟨fun _ hon => Bool.noConfusion hon, fun _ _ => .inl ⟨hp, he⟩⟩
  | command hp ha hd hr =>
    constructor
    · intro hoff hon
      refine ⟨hp, _, _, ha, ?_⟩
      obtain rfl | rfl := hr.eq_setmode_of_turnsOn hoff hon
      · exact .inl hd
      · exact .inr hd
    · intro hon hoff
      obtain ⟨arg, rfl⟩ := hr.eq_poweroff_of_turnsOff hon hoff
      exact .inr ⟨hp, _, _, arg, ha, hd⟩

/-! ### Reset -/

/-- The device's `CFG` is well formed whatever the free record is (R6, R263; log 2). -/
theorem device_wellFormed : Config.device.WellFormed := by
  unfold Config.device
  split
  next h => exact h
  next => decide

theorem reset_tempX2 : State.reset.tempX2.toNat = State.reset.cfg.resetTempX2 := by
  obtain ⟨-, -, -, -, -, -, -, -, hle⟩ := device_wellFormed
  have hlt : Config.device.resetTempX2 < 2 ^ 7 := by omega
  exact Nat.mod_eq_of_lt hlt

theorem reset_tempInRange : TempInRange State.reset.tempX2 := by
  obtain ⟨-, -, -, -, -, -, -, hlo, hhi⟩ := device_wellFormed
  rw [TempInRange, reset_tempX2]
  exact ⟨hlo, hhi⟩

/-- Settles O44: every command that writes the temperature writes one in range. -/
theorem temperatureStaysInRange : Obligations.TemperatureStaysInRange := by
  refine ⟨reset_tempInRange, fun s t hlo hhi h => ?_⟩
  exact step_preserves (P := fun s => TempInRange s.tempX2) (fun hb hs => hb.tempX2_eq ▸ hs)
    RegisterWrites.tempInRange (fun he hs => he.tempX2_eq ▸ hs) h ⟨hlo, hhi⟩

/-- The first step finds the timer disarmed and only moves to `SERVICE` (D8, D19). -/
theorem step_reset : step State.reset = .next (State.reset.setPhase .service).passTime := by
  have hdisarmed : State.reset.expired = false := rfl
  rw [step_poll _ rfl rfl, pollStep, tick_idle _ hdisarmed, Run.finish_going]
  exact congrArg _ (endStep_going .service _ rfl)

/-- Settles O45: the fields of the reset state, and its first step. -/
theorem resetStateIsDefault : Obligations.ResetStateIsDefault :=
  ⟨rfl, rfl, rfl, rfl, rfl, rfl, rfl, rfl, reset_tempX2, device_wellFormed, rfl, rfl, rfl, _, step_reset, rfl, rfl, rfl⟩

/-- Settles O46: the device's `CFG` gives a legal temperature, and buffers and trace are empty. -/
theorem resetMeetsInvariant : Obligations.ResetMeetsInvariant :=
  ⟨{ cfgWf := device_wellFormed
     tempRange := reset_tempInRange
     fanSet := fun hon => by cases hon
     fanLegal := .inl rfl
     frmWf := rfl
     frmWithin := rfl
     plsWf := rfl
     plsWithin := rfl
     plsLenLe := Nat.zero_le _
     noFault := rfl }, List.forall_mem_nil _⟩

end Sys2Proof.Machine
end

section
namespace Sys2Proof.Machine

/-! ### The reset settings and the trace (R39)

Two states that are alike take alike steps: shown operation by operation, since no operation reads what may differ but
a transmission, which happens only while the block is on, and the status record, which goes into a payload. -/

/-- Both runs go on or both are abandoned, in states that are alike. -/
inductive AlikeRuns : Run → Run → Prop where
  | going {s s' : State} (h : AlikeButForUnsentSettings s s') : AlikeRuns (.going s) (.going s')
  | abandoned {s s' : State} (h : AlikeButForUnsentSettings s s') : AlikeRuns (.abandoned s) (.abandoned s')

theorem AlikeRuns.andThen {r r' : Run} {f : State → Run} (h : AlikeRuns r r')
    (hf : ∀ {s s' : State}, AlikeButForUnsentSettings s s' → AlikeRuns (f s) (f s')) :
    AlikeRuns (r.andThen f) (r'.andThen f) := by
  cases h with
  | going h => exact hf h
  | abandoned h => exact .abandoned h

theorem AlikeRuns.finish {r r' : Run} {f : State → State} (h : AlikeRuns r r')
    (hf : ∀ {s s' : State}, AlikeButForUnsentSettings s s' → AlikeButForUnsentSettings (f s) (f s')) :
    AlikeButForUnsentSettings (r.finish f) (r'.finish f) := by
  cases h with
  | going h => exact hf h
  | abandoned h => exact h

/-- `s` with other values of what two alike states may differ in. -/
def State.vary (s : State) (m : Mode) (t : Temp) (rm : Mode) (rt : Nat) (rs : List Response) : State :=
  { s with mode := m, tempX2 := t, responses := rs, cfg := { s.cfg with resetMode := rm, resetTempX2 := rt } }

namespace AlikeButForUnsentSettings

variable {s s' : State} (h : AlikeButForUnsentSettings s s')
include h

theorem powerOn_eq : s'.powerOn = s.powerOn := by obtain ⟨_, _, _, _, _, rfl, -, -⟩ := h; rfl
theorem fanHex_eq : s'.fanHex = s.fanHex := by obtain ⟨_, _, _, _, _, rfl, -, -⟩ := h; rfl
theorem phase_eq : s'.phase = s.phase := by obtain ⟨_, _, _, _, _, rfl, -, -⟩ := h; rfl
theorem fault_eq : s'.fault = s.fault := by obtain ⟨_, _, _, _, _, rfl, -, -⟩ := h; rfl
theorem frm_eq : s'.frm = s.frm := by obtain ⟨_, _, _, _, _, rfl, -, -⟩ := h; rfl
theorem plsLen_eq : s'.plsLen = s.plsLen := by obtain ⟨_, _, _, _, _, rfl, -, -⟩ := h; rfl
theorem plsCap_eq : s'.cfg.plsCap = s.cfg.plsCap := by obtain ⟨_, _, _, _, _, rfl, -, -⟩ := h; rfl
theorem clock_eq : s'.clock = s.clock := by obtain ⟨_, _, _, _, _, rfl, -, -⟩ := h; rfl
theorem arrivals_eq : s'.arrivals = s.arrivals := by obtain ⟨_, _, _, _, _, rfl, -, -⟩ := h; rfl
theorem trace_eq : s'.trace = s.trace := by obtain ⟨_, _, _, _, _, rfl, -, -⟩ := h; rfl
theorem expired_eq : s'.expired = s.expired := by obtain ⟨_, _, _, _, _, rfl, -, -⟩ := h; rfl

theorem scene_eq (scene : Scene) : s'.cfg.scene scene = s.cfg.scene scene := by
  obtain ⟨_, _, _, _, _, rfl, -, -⟩ := h; rfl

theorem fanOperand_eq (token : FanToken) : fanOperand s'.cfg token = fanOperand s.cfg token := by
  obtain ⟨_, _, _, _, _, rfl, -, -⟩ := h; rfl

/-- While on nothing that is sent may differ. -/
theorem settings_eq (hon : s.powerOn = true) : s'.mode = s.mode ∧ s'.tempX2 = s.tempX2 := by
  obtain ⟨_, _, _, _, _, rfl, hsettings, -⟩ := h; exact hsettings hon

/-- An operation that commutes with `vary` neither reads nor writes what may differ, so it keeps states alike, as long
as it does not turn the block on. -/
theorem map {f : State → State} (hf : ∀ s m t rm rt rs, f (s.vary m t rm rt rs) = (f s).vary m t rm rt rs)
    (hpower : (f s).powerOn = true → s.powerOn = true) : AlikeButForUnsentSettings (f s) (f s') := by
  have hkept : f s = (f s).vary s.mode s.tempX2 s.cfg.resetMode s.cfg.resetTempX2 s.responses := hf s _ _ _ _ _
  have hmode : (f s).mode = s.mode := (congrArg State.mode hkept).trans rfl
  have htemp : (f s).tempX2 = s.tempX2 := (congrArg State.tempX2 hkept).trans rfl
  have hresponses : (f s).responses = s.responses := (congrArg State.responses hkept).trans rfl
  obtain ⟨m, t, rm, rt, rs, rfl, hon, hcodes⟩ := h
  refine ⟨m, t, rm, rt, rs, hf s m t rm rt rs, fun hp => ?_, ?_⟩
  · rw [hmode, htemp]; exact hon (hpower hp)
  · rw [hresponses]; exact hcodes

theorem setPhase (p : Phase) : AlikeButForUnsentSettings (s.setPhase p) (s'.setPhase p) :=
  h.map (f := (State.setPhase · p)) (fun _ _ _ _ _ _ => rfl) id

theorem passTime : AlikeButForUnsentSettings s.passTime s'.passTime :=
  h.map (fun _ _ _ _ _ _ => rfl) id

theorem setFanHex (f : Byte) : AlikeButForUnsentSettings (s.setFanHex f) (s'.setFanHex f) :=
  h.map (f := (State.setFanHex · f)) (fun _ _ _ _ _ _ => rfl) id

theorem setOffDeadline (d : Time) : AlikeButForUnsentSettings (s.setOffDeadline d) (s'.setOffDeadline d) :=
  h.map (f := (State.setOffDeadline · d)) (fun _ _ _ _ _ _ => rfl) id

theorem setArrivals (l : List (Option Cmd)) : AlikeButForUnsentSettings (s.setArrivals l) (s'.setArrivals l) :=
  h.map (f := (State.setArrivals · l)) (fun _ _ _ _ _ _ => rfl) id

theorem setFault : AlikeButForUnsentSettings s.setFault s'.setFault :=
  h.map (fun _ _ _ _ _ _ => rfl) id

theorem writePls (a : Nat) (l : List Duration) : AlikeButForUnsentSettings (s.writePls a l) (s'.writePls a l) :=
  h.map (f := (State.writePls · a l)) (fun _ _ _ _ _ _ => rfl) id

theorem setPlsLen (n : Nat) : AlikeButForUnsentSettings (s.setPlsLen n) (s'.setPlsLen n) :=
  h.map (f := (State.setPlsLen · n)) (fun _ _ _ _ _ _ => rfl) id

theorem emitAll (l : List Event) : AlikeButForUnsentSettings (s.emitAll l) (s'.emitAll l) :=
  h.map (f := (State.emitAll · l)) (fun _ _ _ _ _ _ => rfl) id

theorem turnOff : AlikeButForUnsentSettings (turnOff s) (turnOff s') :=
  h.map (fun _ _ _ _ _ _ => rfl) fun hon => Bool.noConfusion hon

theorem endStep (p : Phase) : AlikeButForUnsentSettings (endStep p s) (endStep p s') := by
  unfold Machine.endStep
  rw [h.fault_eq]
  split
  · exact h.passTime
  · exact (h.setPhase p).passTime

/-- Responses of one code are alike whatever their payloads. -/
theorem respond (code : ResponseCode) (payload payload' : Option StatusWord) :
    AlikeButForUnsentSettings (s.respond code payload) (s'.respond code payload') := by
  obtain ⟨m, t, rm, rt, rs, rfl, hon, hcodes⟩ := h
  exact ⟨m, t, rm, rt, rs ++ [⟨code, payload'⟩], rfl, hon, by simp [hcodes]⟩

theorem respondOk : AlikeButForUnsentSettings s.respondOk s'.respondOk := h.respond _ _ _

/-- `SETMODE` makes equal what may differ. -/
theorem setmodeWrites (m : Mode) : AlikeButForUnsentSettings (setmodeWrites m s) (setmodeWrites m s') := by
  rw [setmodeWrites_eq, setmodeWrites_eq]
  obtain ⟨_, _, rm, rt, rs, rfl, -, hcodes⟩ := h
  exact ⟨m, defaultTemp m, rm, rt, rs, rfl, fun _ => ⟨rfl, rfl⟩, hcodes⟩

/-- A temperature step keeps the temperatures equal where they were equal. -/
theorem steptempWrites (delta : Int) :
    AlikeButForUnsentSettings (s.setTempX2 (steppedTemp s.tempX2 delta))
      (s'.setTempX2 (steppedTemp s'.tempX2 delta)) := by
  obtain ⟨m, t, rm, rt, rs, rfl, hon, hcodes⟩ := h
  exact ⟨m, steppedTemp t delta, rm, rt, rs, rfl,
    fun hp => (hon hp).imp_right fun ht => congrArg (steppedTemp · delta) ht, hcodes⟩

theorem encodeFrame (m : Mode) (t : Temp) (f : Byte) :
    AlikeButForUnsentSettings (encodeFrame m t f s) (encodeFrame m t f s') := by
  rw [encodeFrame_eq, encodeFrame_eq]
  exact h.map
    (f := fun s => { s with frm := Memory.listed 0 (acFrame s.cfg m t f) ++ frmBeyond s.frm })
    (fun _ _ _ _ _ _ => rfl) id

theorem copyOff : AlikeButForUnsentSettings (copyOff s) (copyOff s') :=
  h.map (fun _ _ _ _ _ _ => rfl) id

theorem sendPulses : AlikeButForUnsentSettings (sendPulses s) (sendPulses s') :=
  h.map (fun _ _ _ _ _ _ => rfl) id

theorem appendAll (l : List Duration) : AlikeRuns (appendAll l s) (appendAll l s') := by
  unfold Machine.appendAll
  rw [h.plsLen_eq, h.plsCap_eq]
  split
  · exact .going ((h.writePls _ _).setPlsLen _)
  · exact .abandoned ((h.writePls _ _).setPlsLen _).setFault

theorem emitFrame (first last : Nat) (tail : Duration) :
    AlikeRuns (emitFrame first last tail s) (emitFrame first last tail s') := by
  unfold Machine.emitFrame
  rw [h.frm_eq]
  exact h.appendAll _

theorem waveAndSend : AlikeRuns (waveAndSend s) (waveAndSend s') :=
  AlikeRuns.andThen (((h.setPlsLen 0).emitFrame 0 19 tGap).andThen fun h => h.emitFrame 20 38 tEnd)
    fun h => .going h.sendPulses

theorem transmitAC (hon : s.powerOn = true) : AlikeRuns (transmitAC s) (transmitAC s') := by
  obtain ⟨hmode, htemp⟩ := h.settings_eq hon
  unfold Machine.transmitAC
  rw [hmode, htemp, h.fanHex_eq]
  exact (h.encodeFrame _ _ _).waveAndSend

theorem transmitIfOn : AlikeRuns (transmitIfOn s) (transmitIfOn s') := by
  unfold Machine.transmitIfOn
  rw [h.powerOn_eq]
  split
  next hon => exact h.transmitAC hon
  next => exact .going h

theorem forcedOff : AlikeRuns (forcedOff s) (forcedOff s') :=
  AlikeRuns.andThen h.copyOff.waveAndSend fun h => .going h.turnOff

theorem tick : AlikeRuns (tick s) (tick s') := by
  unfold Machine.tick
  rw [h.expired_eq]
  split
  · exact h.forcedOff
  · exact .going h

theorem pollStep : AlikeButForUnsentSettings (pollStep s) (pollStep s') :=
  (h.tick.finish (f := id) fun h => h).endStep .service

end AlikeButForUnsentSettings

/-- Where one outcome is a next state, the other is one too, and the two are alike. -/
def AlikeOutcomes (o o' : Host.Outcome State Fault Refusal) : Prop :=
  ∀ t, o = .next t → ∃ t', o' = .next t' ∧ AlikeButForUnsentSettings t t'

theorem AlikeButForUnsentSettings.next {t t' : State} (h : AlikeButForUnsentSettings t t') :
    AlikeOutcomes (.next t) (.next t') := by
  rintro _ ⟨⟩
  exact ⟨t', rfl, h⟩

theorem AlikeOutcomes.endService {o o' : Host.Outcome State Fault Refusal} (h : AlikeOutcomes o o') :
    AlikeOutcomes (endService o) (endService o') := by
  intro t ht
  obtain ⟨v, hv, rfl⟩ := endService_eq_next ht
  obtain ⟨v', rfl, hvv'⟩ := h v hv
  exact ⟨_, rfl, hvv'.endStep .poll⟩

namespace AlikeButForUnsentSettings

variable {s s' : State} (h : AlikeButForUnsentSettings s s')
include h

theorem execSetmode (token : ModeToken) : AlikeOutcomes (execSetmode token s) (execSetmode token s') := by
  apply AlikeButForUnsentSettings.next
  cases modeOperand token with
  | none => exact h.respondOk
  | some m =>
    have hon : (Machine.setmodeWrites m s).powerOn = true := by rw [setmodeWrites_eq]
    exact ((h.setmodeWrites m).transmitAC hon).finish fun h => h.respondOk

theorem execSteptemp (token : DirectionToken) : AlikeOutcomes (execSteptemp token s) (execSteptemp token s') := by
  apply AlikeButForUnsentSettings.next
  cases directionOperand token with
  | none => exact h.respondOk
  | some delta => exact (h.steptempWrites delta).transmitIfOn.finish fun h => h.respondOk

theorem execSetfan (token : FanToken) : AlikeOutcomes (execSetfan token s) (execSetfan token s') := by
  apply AlikeButForUnsentSettings.next
  rw [h.fanOperand_eq token]
  cases fanOperand s.cfg token with
  | none => exact h.respondOk
  | some f => exact (h.setFanHex f).transmitIfOn.finish fun h => h.respondOk

theorem execArmtimer (minutes : Int) : AlikeOutcomes (execArmtimer minutes s) (execArmtimer minutes s') := by
  apply AlikeButForUnsentSettings.next
  rw [h.clock_eq]
  split
  · exact h.respond _ _ _
  · exact (h.setOffDeadline _).respondOk

theorem execPlaylight (token : SceneToken) : AlikeOutcomes (execPlaylight token s) (execPlaylight token s') := by
  apply AlikeButForUnsentSettings.next
  cases sceneOperand token with
  | none => exact h.respond _ _ _
  | some scene =>
    simp only [h.scene_eq scene]
    exact (h.emitAll _).respondOk

theorem exec (i : Instr) : AlikeOutcomes (exec i s) (exec i s') := by
  cases i with
  | setmode token => exact h.execSetmode token
  | steptemp token => exact h.execSteptemp token
  | setfan token => exact h.execSetfan token
  | poweroff => exact (h.forcedOff.finish fun h => h.respondOk).next
  | armtimer minutes => exact h.execArmtimer minutes
  | canceltimer => exact (h.setOffDeadline 0).respondOk.next
  | getstatus => exact (h.respond .ok _ _).next
  | playlight token => exact h.execPlaylight token

theorem execute (cmd : Cmd) : AlikeOutcomes (execute cmd s) (execute cmd s') := by
  unfold Machine.execute
  split
  · exact h.exec _
  · exact (h.respond _ _ _).next

theorem serviceStep : AlikeOutcomes (serviceStep s) (serviceStep s') := by
  unfold Machine.serviceStep
  rw [h.arrivals_eq]
  split
  · exact (h.endStep .poll).next
  · exact ((h.setArrivals _).endStep .poll).next
  · exact ((h.setArrivals _).execute _).endService

theorem step : AlikeOutcomes (step s) (step s') := by
  unfold Machine.step loopStep
  rw [h.fault_eq, h.phase_eq]
  split
  · rintro _ ⟨⟩
  · split
    · exact h.pollStep.next
    · exact h.serviceStep

end AlikeButForUnsentSettings

/-- A run goes on from the state its first step answers. -/
theorem run_succ_of_step {M : Host.Core} {s u : M.State} (h : M.step s = .next u) (n : Nat) :
    M.run (n + 1) s = M.run n u := by
  rw [Host.Core.run, h]

/-- A run that answers a next state had a first step that did. -/
theorem step_of_run_succ {M : Host.Core} {s t : M.State} {n : Nat} (h : M.run (n + 1) s = .next t) :
    ∃ u, M.step s = .next u ∧ M.run n u = .next t := by
  rw [Host.Core.run] at h
  split at h
  next u hu => exact ⟨u, hu, h⟩
  next => cases h
  next => cases h

/-- Alike states have alike runs of any length. -/
theorem AlikeButForUnsentSettings.run {s s' : State} (h : AlikeButForUnsentSettings s s') (n : Nat) :
    AlikeOutcomes (Host.Core.run core n s) (Host.Core.run core n s') := by
  induction n generalizing s s' with
  | zero => exact h.next
  | succ n ih =>
    intro t ht
    obtain ⟨u, hu, ht⟩ := step_of_run_succ (M := core) ht
    obtain ⟨u', hu', huu'⟩ := h.step u hu
    rw [run_succ_of_step (M := core) hu' n]
    exact ih huu' t ht

/-- Reset under two `CFG`s that differ in the reset settings only: the block is off, so the states are alike. -/
theorem resetWith_alike (cfg : Cfg) (m : Mode) (temp : Nat) (clock : Time) (elapse : List Nat)
    (arrivals : List (Option Cmd)) :
    AlikeButForUnsentSettings { State.resetWith cfg clock with elapse := elapse, arrivals := arrivals }
      { State.resetWith { cfg with resetMode := m, resetTempX2 := temp } clock with
        elapse := elapse, arrivals := arrivals } :=
  ⟨m, BitVec.ofNat 7 temp, m, temp, [], rfl, fun hon => Bool.noConfusion hon, rfl⟩

/-- Settles O57: alike states take alike steps, reset gives alike states, and alike states have one trace. -/
theorem traceIndependentOfResetSettings : Obligations.TraceIndependentOfResetSettings := by
  refine ⟨fun s s' t h ht => h.step t ht, fun cfg m temp clock elapse arrivals n t ht => ?_⟩
  obtain ⟨t', ht', htt'⟩ := (resetWith_alike cfg m temp clock elapse arrivals).run n t ht
  exact ⟨t', ht', htt'.trace_eq⟩

end Sys2Proof.Machine
end

section
namespace Sys2Proof.Machine

/-! ### The pulse buffer map (20_memory.md R53)

The map is read off level by level: the pulses of a byte, of a list of bytes, of one IR frame, of both frames. -/

/-- Bit `k` of a byte is a mark and then the space that codes it (R98, R175). -/
theorem getElem?_byteBits (v : Byte) {k : Nat} (hk : k < 8) :
    (byteBits v)[2 * k]? = some tBitMark ∧ (byteBits v)[2 * k + 1]? = some (bitSpace (v.getLsbD k)) := by
  interval_cases k <;> exact ⟨rfl, rfl⟩

/-- Byte `i` takes the 16 entries from `16 * i` on. -/
theorem getElem?_bits (l : List Byte) {i j : Nat} (hi : i < l.length) (hj : j < 16) :
    (bits l)[16 * i + j]? = (byteBits (l.getD i 0))[j]? := by
  induction l generalizing i with
  | nil => cases hi
  | cons v vs ih =>
    have hcons : bits (v :: vs) = byteBits v ++ bits vs := rfl
    rw [hcons]
    cases i with
    | zero => rw [List.getElem?_append_left (by simpa using hj)]; simp
    | succ i =>
      have hskip : 16 * (i + 1) + j = (byteBits v).length + (16 * i + j) := by rw [length_byteBits]; omega
      rw [hskip, List.getElem?_append_right (Nat.le_add_right _ _), Nat.add_sub_cancel_left,
        ih (Nat.lt_of_succ_lt_succ hi), List.getD_cons_succ]

/-- Between header and trailer an IR frame is the pulses of its bytes. -/
theorem getElem?_framePulses_bits (l : List Byte) (tail : Duration) {j : Nat} (hj : j < 16 * l.length) :
    (framePulses l tail)[j + 2]? = (bits l)[j]? := by
  have hbody : framePulses l tail = tHdrMark :: tHdrSpace :: (bits l ++ [tBitMark, tail]) := rfl
  rw [hbody, List.getElem?_cons_succ, List.getElem?_cons_succ, List.getElem?_append_left (by simpa using hj)]

/-- Bit `k` of byte `i` in an IR frame. -/
theorem getElem?_framePulses_bit (l : List Byte) (tail : Duration) {i k : Nat} (hi : i < l.length) (hk : k < 8) :
    (framePulses l tail)[2 + 16 * i + 2 * k]? = some tBitMark ∧
    (framePulses l tail)[3 + 16 * i + 2 * k]? = some (bitSpace ((l.getD i 0).getLsbD k)) := by
  have hentry : ∀ j, j < 16 → (framePulses l tail)[16 * i + j + 2]? = (byteBits (l.getD i 0))[j]? := fun j hj => by
    rw [getElem?_framePulses_bits l tail (by omega), getElem?_bits l hi hj]
  obtain ⟨hmark, hspace⟩ := getElem?_byteBits (l.getD i 0) hk
  rw [show 2 + 16 * i + 2 * k = 16 * i + 2 * k + 2 by omega,
    show 3 + 16 * i + 2 * k = 16 * i + (2 * k + 1) + 2 by omega, hentry _ (by omega), hentry _ (by omega)]
  exact ⟨hmark, hspace⟩

/-- The trailer of an IR frame: a mark and the space that ends it (R177; the mark is D31). -/
theorem getElem?_framePulses_trailer (l : List Byte) (tail : Duration) :
    (framePulses l tail)[16 * l.length + 2]? = some tBitMark ∧
    (framePulses l tail)[16 * l.length + 3]? = some tail := by
  have hlen : ([tHdrMark, tHdrSpace] ++ bits l).length = 16 * l.length + 2 := by simp
  unfold framePulses
  rw [List.getElem?_append_right (by omega), List.getElem?_append_right (by omega), hlen, Nat.sub_self,
    show 16 * l.length + 3 - (16 * l.length + 2) = 1 by omega]
  exact ⟨rfl, rfl⟩

section
variable {frame : List Byte} (hf : frame.length = 39)
include hf

/-- IR frame 1 is the first 324 entries. -/
theorem getElem?_wave_first {j : Nat} (hj : j < 324) :
    (wave frame)[j]? = (framePulses (frame.take 20) tGap)[j]? :=
  List.getElem?_append_left (by simpa [hf] using hj)

/-- IR frame 2 is the entries from 324 on. -/
theorem getElem?_wave_second (j : Nat) :
    (wave frame)[324 + j]? = (framePulses ((frame.drop 20).take 19) tEnd)[j]? := by
  have hlen : (framePulses (frame.take 20) tGap).length = 324 := by simp [hf]
  rw [wave, List.getElem?_append_right (by omega), hlen, Nat.add_sub_cancel_left]

/-- Bit `k` of byte `i` of IR frame 1. -/
theorem getElem?_wave_first_bit {i k : Nat} (hi : i < 20) (hk : k < 8) :
    (wave frame)[2 + 16 * i + 2 * k]? = some tBitMark ∧
    (wave frame)[3 + 16 * i + 2 * k]? = some (bitSpace ((frame.getD i 0).getLsbD k)) := by
  have hbyte : (frame.take 20).getD i 0 = frame.getD i 0 := by simp [hi]
  rw [getElem?_wave_first hf (by omega), getElem?_wave_first hf (by omega), ← hbyte]
  exact getElem?_framePulses_bit _ _ (by simp; omega) hk

/-- Bit `k` of byte `i`, counted from byte 20 of the frame, of IR frame 2. -/
theorem getElem?_wave_second_bit {i k : Nat} (hi : i < 19) (hk : k < 8) :
    (wave frame)[326 + 16 * i + 2 * k]? = some tBitMark ∧
    (wave frame)[327 + 16 * i + 2 * k]? = some (bitSpace ((frame.getD (20 + i) 0).getLsbD k)) := by
  have hbyte : ((frame.drop 20).take 19).getD i 0 = frame.getD (20 + i) 0 := by simp [hi]
  rw [show 326 + 16 * i + 2 * k = 324 + (2 + 16 * i + 2 * k) by omega,
    show 327 + 16 * i + 2 * k = 324 + (3 + 16 * i + 2 * k) by omega,
    getElem?_wave_second hf, getElem?_wave_second hf, ← hbyte]
  exact getElem?_framePulses_bit _ _ (by simp; omega) hk

theorem getElem?_wave_first_trailer : (wave frame)[322]? = some tBitMark ∧ (wave frame)[323]? = some tGap := by
  rw [getElem?_wave_first hf (by omega), getElem?_wave_first hf (by omega)]
  simpa [hf] using getElem?_framePulses_trailer (frame.take 20) tGap

theorem getElem?_wave_second_trailer : (wave frame)[630]? = some tBitMark ∧ (wave frame)[631]? = some tEnd := by
  rw [show 630 = 324 + 306 from rfl, show 631 = 324 + 307 from rfl, getElem?_wave_second hf, getElem?_wave_second hf]
  simpa [hf] using getElem?_framePulses_trailer ((frame.drop 20).take 19) tEnd

end

/-- Settles O36: headers, bits and trailers of the two IR frames, each at its place in the pulse train. -/
theorem waveFollowsPulseMap : Obligations.WaveFollowsPulseMap := by
  intro frame hf
  obtain ⟨hmark₁, hgap⟩ := getElem?_wave_first_trailer hf
  obtain ⟨hmark₂, hend⟩ := getElem?_wave_second_trailer hf
  refine ⟨length_wave frame hf, rfl, rfl, hmark₁, hgap, getElem?_wave_second hf 0, getElem?_wave_second hf 1,
    hmark₂, hend, fun i k hi hk => getElem?_wave_first_bit hf (by omega) (by omega), fun i k hlo hhi hk => ?_⟩
  obtain ⟨i, rfl⟩ := Nat.exists_eq_add_of_le hlo
  rw [Nat.add_sub_cancel_left]
  exact getElem?_wave_second_bit hf (by omega) (by omega)

end Sys2Proof.Machine
end

section
namespace Sys2Proof.Machine

/-! ### Outputs and responses (R62, R87) -/

theorem Emission.trace_prefix {s v : State} (h : Emission s v) : s.trace <+: v.trace := by
  cases h with
  | silent | overflow => exact List.prefix_rfl
  | acFrame | offFrame | scene => exact List.prefix_append _ _

/-- No step takes back an event (R62). -/
theorem step_trace_prefix {s t : State} (h : step s = .next t) : s.trace <+: t.trace :=
  step_preserves (P := fun t => s.trace <+: t.trace) (fun hb hs => hb.trace_eq ▸ hs) (fun hw hs => hw.trace_eq ▸ hs)
    (fun he hs => hs.trans he.trace_prefix) h List.prefix_rfl

/-- `t` has answered exactly once since `s`. -/
def AnsweredOnce (s t : State) : Prop := ∃ r, t.responses = s.responses ++ [r]

/-- The operation goes on and answers nothing. -/
def GoesOnUnanswered (s : State) (r : Run) : Prop := ∃ u, r = .going u ∧ u.responses = s.responses

/-- The `OK` after such an operation is the one answer. -/
theorem GoesOnUnanswered.respondOk {s : State} {r : Run} (h : GoesOnUnanswered s r) :
    AnsweredOnce s (r.finish State.respondOk) := by
  obtain ⟨u, rfl, hu⟩ := h
  exact ⟨_, congrArg (· ++ _) hu⟩

theorem respond_answeredOnce (code : ResponseCode) (payload : Option StatusWord) (s : State) :
    AnsweredOnce s (s.respond code payload) :=
  ⟨_, rfl⟩

theorem transmitAC_unanswered {s : State} (hcap : 632 ≤ s.cfg.plsCap) : GoesOnUnanswered s (transmitAC s) :=
  ⟨_, transmitAC_eq s hcap, rfl⟩

theorem transmitIfOn_unanswered {s : State} (hcap : 632 ≤ s.cfg.plsCap) : GoesOnUnanswered s (transmitIfOn s) := by
  unfold transmitIfOn
  split
  · exact transmitAC_unanswered hcap
  · exact ⟨s, rfl, rfl⟩

theorem forcedOff_unanswered {s : State} (hcap : 632 ≤ s.cfg.plsCap) : GoesOnUnanswered s (forcedOff s) :=
  ⟨_, forcedOff_eq s hcap, rfl⟩

theorem tick_unanswered {s : State} (hcap : 632 ≤ s.cfg.plsCap) : GoesOnUnanswered s (tick s) := by
  unfold tick
  split
  · exact forcedOff_unanswered hcap
  · exact ⟨s, rfl, rfl⟩

@[simp] theorem setmodeWrites_responses (m : Mode) (s : State) : (setmodeWrites m s).responses = s.responses := by
  rw [setmodeWrites_eq]

@[simp] theorem endStep_responses (p : Phase) (s : State) : (endStep p s).responses = s.responses := by
  unfold endStep
  split <;> rfl

theorem execSetmode_answeredOnce {token : ModeToken} {s t : State} (hcap : 632 ≤ s.cfg.plsCap)
    (h : execSetmode token s = .next t) : AnsweredOnce s t := by
  cases hm : modeOperand token with
  | none =>
    rw [execSetmode, hm] at h; cases h
    exact respond_answeredOnce _ _ s
  | some m =>
    rw [execSetmode_recognised token m s hm hcap] at h; cases h
    exact ⟨_, congrArg (· ++ _) (setmodeWrites_responses m s)⟩

theorem execSteptemp_answeredOnce {token : DirectionToken} {s t : State} (hcap : 632 ≤ s.cfg.plsCap)
    (h : execSteptemp token s = .next t) : AnsweredOnce s t := by
  unfold execSteptemp at h
  cases hd : directionOperand token with
  | none =>
    rw [hd] at h; cases h
    exact respond_answeredOnce _ _ s
  | some delta =>
    rw [hd] at h; cases h
    exact (transmitIfOn_unanswered (s := s.setTempX2 (steppedTemp s.tempX2 delta)) hcap).respondOk

theorem execSetfan_answeredOnce {token : FanToken} {s t : State} (hcap : 632 ≤ s.cfg.plsCap)
    (h : execSetfan token s = .next t) : AnsweredOnce s t := by
  unfold execSetfan at h
  cases hf : fanOperand s.cfg token with
  | none =>
    rw [hf] at h; cases h
    exact respond_answeredOnce _ _ s
  | some f =>
    rw [hf] at h; cases h
    exact (transmitIfOn_unanswered (s := s.setFanHex f) hcap).respondOk

theorem execArmtimer_answeredOnce {minutes : Int} {s t : State} (h : execArmtimer minutes s = .next t) :
    AnsweredOnce s t := by
  unfold execArmtimer at h
  split at h <;> cases h
  · exact respond_answeredOnce _ _ s
  · exact ⟨_, rfl⟩

theorem execPlaylight_answeredOnce {token : SceneToken} {s t : State} (h : execPlaylight token s = .next t) :
    AnsweredOnce s t := by
  unfold execPlaylight at h
  split at h <;> cases h
  · exact respond_answeredOnce _ _ s
  · exact ⟨_, rfl⟩

/-- Every command answers exactly once (R87). -/
theorem exec_answeredOnce {i : Instr} {s t : State} (hcap : 632 ≤ s.cfg.plsCap) (h : exec i s = .next t) :
    AnsweredOnce s t := by
  cases i with
  | setmode token => exact execSetmode_answeredOnce hcap h
  | steptemp token => exact execSteptemp_answeredOnce hcap h
  | setfan token => exact execSetfan_answeredOnce hcap h
  | poweroff arg => cases h; exact (forcedOff_unanswered hcap).respondOk
  | armtimer minutes => exact execArmtimer_answeredOnce h
  | canceltimer arg => cases h; exact ⟨_, rfl⟩
  | getstatus arg => cases h; exact respond_answeredOnce _ _ s
  | playlight token => exact execPlaylight_answeredOnce h

/-- A reserved `op` too is answered exactly once (R90). -/
theorem execute_answeredOnce {cmd : Cmd} {s t : State} (hcap : 632 ≤ s.cfg.plsCap) (h : execute cmd s = .next t) :
    AnsweredOnce s t := by
  unfold execute at h
  split at h
  · exact exec_answeredOnce hcap h
  · cases h; exact respond_answeredOnce _ _ s

theorem pollStep_responses {s : State} (hcap : 632 ≤ s.cfg.plsCap) : (pollStep s).responses = s.responses := by
  obtain ⟨u, htick, hu⟩ := tick_unanswered hcap
  rw [pollStep, endStep_responses, htick]
  exact hu

theorem serviceStep_answeredOnce {s t : State} {cmd : Cmd} {rest : List (Option Cmd)} (hcap : 632 ≤ s.cfg.plsCap)
    (ha : s.arrivals = some cmd :: rest) (h : serviceStep s = .next t) : AnsweredOnce s t := by
  unfold serviceStep at h
  simp only [ha] at h
  obtain ⟨v, hv, rfl⟩ := endService_eq_next h
  obtain ⟨r, hr⟩ := execute_answeredOnce (s := s.setArrivals rest) hcap hv
  exact ⟨r, (endStep_responses _ v).trans hr⟩

theorem serviceStep_idle_responses {s t : State} (ha : ∀ cmd rest, s.arrivals ≠ some cmd :: rest)
    (h : serviceStep s = .next t) : t.responses = s.responses := by
  unfold serviceStep at h
  split at h
  next => cases h; exact endStep_responses _ _
  next => cases h; exact endStep_responses _ _
  next cmd rest harr => exact absurd harr (ha cmd rest)

/-- A step that answers a next state is the step of its phase (44 R216). -/
theorem step_eq_next {s t : State} (h : step s = .next t) :
    (s.phase = .poll ∧ t = pollStep s) ∨ (s.phase = .service ∧ serviceStep s = .next t) := by
  unfold step loopStep at h
  split at h
  · cases h
  · split at h
    next hp => cases h; exact .inl ⟨hp, rfl⟩
    next hp => exact .inr ⟨hp, h⟩

/-- Settles O51: no step takes back an event, a command answers once, and a step that services none answers nothing. -/
theorem oneResponsePerServicedCommand : Obligations.OneResponsePerServicedCommand := by
  intro s t hcap h
  refine ⟨?_, ?_, fun hnone => ?_⟩
  · obtain ⟨es, hes⟩ := step_trace_prefix h
    exact ⟨es, hes.symm⟩
  · rintro ⟨cmd, rest, hp, ha⟩
    obtain ⟨hpoll, -⟩ | ⟨-, hs⟩ := step_eq_next h
    · exact absurd (hpoll.symm.trans hp) (by decide)
    · exact serviceStep_answeredOnce hcap ha hs
  · obtain ⟨-, rfl⟩ | ⟨hp, hs⟩ := step_eq_next h
    · exact pollStep_responses hcap
    · exact serviceStep_idle_responses (fun cmd rest ha => hnone ⟨cmd, rest, hp, ha⟩) hs

end Sys2Proof.Machine
end

section
namespace Sys2Proof

/-! ### Operand tokens and their codes (30_encoding.md R82 to R86)

Each token table is inverse to its numbering: on the tokens of the table by evaluation, on an unrecognised token
because it keeps its `arg`. -/

/-- A small operand is one of the numbers below the bound. -/
theorem exists_fin_eq_ofNat (arg : Arg) (n : Nat) (h : arg.toNat < n) : ∃ k : Fin n, arg = BitVec.ofNat 32 k :=
  ⟨⟨arg.toNat, h⟩, by simp⟩

theorem decodeMode_encodeMode (t : ModeToken) (h : t.wf = true) : decodeMode (encodeMode t) = t := by
  cases t with
  | heat | cool => rfl
  | unrecognised arg => exact decodeMode_unrecognised arg (of_decide_eq_true h)

theorem decodeDirection_encodeDirection (t : DirectionToken) (h : t.wf = true) :
    decodeDirection (encodeDirection t) = t := by
  cases t with
  | negative | positive => rfl
  | unrecognised arg => exact decodeDirection_unrecognised arg (of_decide_eq_true h)

theorem decodeFan_encodeFan (t : FanToken) (h : t.wf = true) : decodeFan (encodeFan t) = t := by
  cases t with
  | auto | quiet | lv1 | lv2 | lv3 | lv4 | lv5 => rfl
  | unrecognised arg => exact decodeFan_unrecognised arg (of_decide_eq_true h)

theorem decodeScene_encodeScene (t : SceneToken) (h : t.wf = true) : decodeScene (encodeScene t) = t := by
  cases t with
  | on | night | off => rfl
  | unrecognised arg => exact decodeScene_unrecognised arg (of_decide_eq_true h)

theorem wf_and_encode_decodeMode (arg : Arg) : (decodeMode arg).wf = true ∧ encodeMode (decodeMode arg) = arg := by
  by_cases h : 1 < arg.toNat
  · rw [decodeMode_unrecognised arg h]
    exact ⟨decide_eq_true h, rfl⟩
  · obtain ⟨k, rfl⟩ := exists_fin_eq_ofNat arg 2 (by omega)
    revert k; decide

theorem wf_and_encode_decodeDirection (arg : Arg) :
    (decodeDirection arg).wf = true ∧ encodeDirection (decodeDirection arg) = arg := by
  by_cases h : 1 < arg.toNat
  · rw [decodeDirection_unrecognised arg h]
    exact ⟨decide_eq_true h, rfl⟩
  · obtain ⟨k, rfl⟩ := exists_fin_eq_ofNat arg 2 (by omega)
    revert k; decide

theorem wf_and_encode_decodeFan (arg : Arg) : (decodeFan arg).wf = true ∧ encodeFan (decodeFan arg) = arg := by
  by_cases h : 6 < arg.toNat
  · rw [decodeFan_unrecognised arg h]
    exact ⟨decide_eq_true h, rfl⟩
  · obtain ⟨k, rfl⟩ := exists_fin_eq_ofNat arg 7 (by omega)
    revert k; decide

theorem wf_and_encode_decodeScene (arg : Arg) :
    (decodeScene arg).wf = true ∧ encodeScene (decodeScene arg) = arg := by
  by_cases h : 2 < arg.toNat
  · rw [decodeScene_unrecognised arg h]
    exact ⟨decide_eq_true h, rfl⟩
  · obtain ⟨k, rfl⟩ := exists_fin_eq_ofNat arg 3 (by omega)
    revert k; decide

/-- A signed 32-bit number of minutes is read back from its residue modulo `2^32` (R85, R102). -/
theorem sext32_ofInt (minutes : Int) (h : minutesInRange minutes = true) :
    Machine.sext32 (BitVec.ofInt 32 minutes) = minutes := by
  obtain ⟨hlo, hhi⟩ := of_decide_eq_true h
  exact BitVec.toInt_ofInt_eq_self (by decide) (by omega) (by omega)

theorem minutesInRange_sext32 (arg : Arg) : minutesInRange (Machine.sext32 arg) = true := by
  have hlo : -2 ^ 31 ≤ Machine.sext32 arg := BitVec.le_toInt arg
  have hhi : Machine.sext32 arg < 2 ^ 31 := BitVec.toInt_lt
  exact decide_eq_true (by omega)

/-! ### The command word -/

/-- Settles O1: the two fields of the word are the opcode and the operand, and each operand table reads its own codes
back. -/
theorem decodeOfEncodeIsIdentity : Obligations.DecodeOfEncodeIsIdentity := by
  intro i hwf
  have hop := opField_encode i
  have harg := argField_encode i
  cases i with
  | setmode t => rw [decode_setmode _ hop, harg, operandOf, decodeMode_encodeMode t hwf]
  | steptemp t => rw [decode_steptemp _ hop, harg, operandOf, decodeDirection_encodeDirection t hwf]
  | setfan t => rw [decode_setfan _ hop, harg, operandOf, decodeFan_encodeFan t hwf]
  | poweroff arg => rw [decode_poweroff _ hop, harg, operandOf]
  | armtimer minutes => rw [decode_armtimer _ hop, harg, operandOf, sext32_ofInt minutes hwf]
  | canceltimer arg => rw [decode_canceltimer _ hop, harg, operandOf]
  | getstatus arg => rw [decode_getstatus _ hop, harg, operandOf]
  | playlight t => rw [decode_playlight _ hop, harg, operandOf, decodeScene_encodeScene t hwf]

/-- What an accepted word decodes to: a well-formed command of its opcode and operand. -/
theorem decode_eq_ok {cmd : Cmd} {i : Instr} (h : decode cmd = .ok i) :
    i.wf = true ∧ opcodeOf i = opField cmd ∧ operandOf i = argField cmd := by
  unfold decode at h
  split at h
  next hop =>
    cases h
    exact (wf_and_encode_decodeMode _).imp_right fun harg => ⟨BitVec.eq_of_toNat_eq hop.symm, harg⟩
  next hop =>
    cases h
    exact (wf_and_encode_decodeDirection _).imp_right fun harg => ⟨BitVec.eq_of_toNat_eq hop.symm, harg⟩
  next hop =>
    cases h
    exact (wf_and_encode_decodeFan _).imp_right fun harg => ⟨BitVec.eq_of_toNat_eq hop.symm, harg⟩
  next hop => cases h; exact ⟨rfl, BitVec.eq_of_toNat_eq hop.symm, rfl⟩
  next hop => cases h; exact ⟨minutesInRange_sext32 _, BitVec.eq_of_toNat_eq hop.symm, BitVec.ofInt_toInt⟩
  next hop => cases h; exact ⟨rfl, BitVec.eq_of_toNat_eq hop.symm, rfl⟩
  next hop => cases h; exact ⟨rfl, BitVec.eq_of_toNat_eq hop.symm, rfl⟩
  next hop =>
    cases h
    exact (wf_and_encode_decodeScene _).imp_right fun harg => ⟨BitVec.eq_of_toNat_eq hop.symm, harg⟩
  next => cases h

/-- Settles O2: a word is its two fields, and the command it decodes to carries both. -/
theorem encodeOfDecodeIsIdentity : Obligations.EncodeOfDecodeIsIdentity := by
  intro cmd i h
  obtain ⟨hwf, hop, harg⟩ := decode_eq_ok h
  refine ⟨hwf, ?_⟩
  rw [encode, hop, harg]
  exact cmd_eq_fields cmd

/-- The decoder reads exactly the words of the well-formed commands (R80, R81). -/
theorem decode_eq_ok_iff {cmd : Cmd} {i : Instr} : decode cmd = .ok i ↔ i.wf = true ∧ encode i = cmd :=
  ⟨encodeOfDecodeIsIdentity cmd i, fun ⟨hwf, henc⟩ => henc ▸ decodeOfEncodeIsIdentity i hwf⟩

/-- Settles O4: each word is the word of the command of its text. -/
theorem wordsOfTheSyntaxTableDecode : Obligations.WordsOfTheSyntaxTableDecode := by
  unfold Obligations.WordsOfTheSyntaxTableDecode
  simp only [decode_eq_ok_iff]
  decide

theorem opcodeOf_bounds (i : Instr) : 1 ≤ (opcodeOf i).toNat ∧ (opcodeOf i).toNat ≤ 8 := by
  cases i <;> simp [opcodeOf]

/-- A word that the decoder rejects has an `op` outside the table. -/
theorem decode_eq_error {cmd : Cmd} {e : DecodeError} (h : decode cmd = .error e) :
    ¬ (1 ≤ (opField cmd).toNat ∧ (opField cmd).toNat ≤ 8) := by
  rintro ⟨hlo, hhi⟩
  unfold decode at h
  interval_cases (opField cmd).toNat <;> cases h

/-- Settles O3: an accepted word has the opcode of a command, and a rejected one a reserved `op`. -/
theorem decoderAcceptsOpcodesOneToEight : Obligations.DecoderAcceptsOpcodesOneToEight := by
  intro cmd
  refine ⟨⟨fun ⟨i, h⟩ => ?_, fun hop => ?_⟩, fun hop => decode_reserved cmd (by omega)⟩
  · obtain ⟨-, hop, -⟩ := decode_eq_ok h
    rw [← hop]
    exact opcodeOf_bounds i
  · cases h : decode cmd with
    | ok i => exact ⟨i, rfl⟩
    | error e => exact absurd hop (decode_eq_error h)

end Sys2Proof
end

section
namespace Sys2Proof.Machine

/-! ### Commands whose operand is not used -/

/-- Settles O24: the three meanings do not name their operand. -/
theorem operandlessCommandsIgnoreArg : Obligations.OperandlessCommandsIgnoreArg := by
  intro s cmd cmd' hop hcases
  rcases hcases with h | h | h
  · rw [execute_ok _ _ s (decode_poweroff cmd h), execute_ok _ _ s (decode_poweroff cmd' (hop ▸ h))]
    rfl
  · rw [execute_ok _ _ s (decode_canceltimer cmd h), execute_ok _ _ s (decode_canceltimer cmd' (hop ▸ h))]
    rfl
  · rw [execute_ok _ _ s (decode_getstatus cmd h), execute_ok _ _ s (decode_getstatus cmd' (hop ▸ h))]
    rfl

/-- Settles O25: an operand above the last code of its table decodes to an unrecognised token, which stands for
nothing. -/
theorem unrecognisedTokenIsSilentNoOp : Obligations.UnrecognisedTokenIsSilentNoOp := by
  intro s cmd hcases
  rcases hcases with ⟨hop, harg⟩ | ⟨hop, harg⟩ | ⟨hop, harg⟩
  · rw [execute_ok _ _ s (decode_setmode cmd hop), decodeMode_unrecognised _ harg]
    rfl
  · rw [execute_ok _ _ s (decode_steptemp cmd hop), decodeDirection_unrecognised _ harg]
    rfl
  · rw [execute_ok _ _ s (decode_setfan cmd hop), decodeFan_unrecognised _ harg]
    rfl

/-! ### `SETFAN` (40 R122) -/

theorem execSetfan_recognised {token : FanToken} {f : Byte} (s : State) (hf : fanOperand s.cfg token = some f) :
    execSetfan token s = .next ((transmitIfOn (s.setFanHex f)).finish State.respondOk) := by
  rw [execSetfan, hf]

/-- Settles O14: the selector's fan byte is written, and a frame sent only when on. -/
theorem setfanSetsFanAndTransmitsWhenOn : Obligations.SetfanSetsFanAndTransmitsWhenOn := by
  intro s token fan hmem
  have hfan : fanOperand s.cfg token = some fan := by cases token <;> simp_all [fanOperand]
  have hexec : exec (.setfan token) s = _ := execSetfan_recognised s hfan
  refine ⟨fun hoff => ?_, fun hon hcap => ?_⟩
  · rw [hexec, transmitIfOn_off (s.setFanHex fan) hoff]
    rfl
  · rw [hexec, transmitIfOn_on (s.setFanHex fan) hon hcap]
    exact ⟨_, rfl, transmitted_buffers (s.setFanHex fan) _ (length_acFrame _ _ _ _), rfl⟩

/-! ### `GETSTATUS` (30 R88, 40 R126) -/

/-- The remaining time in whole seconds is 0 once the deadline has passed (R133). -/
theorem toNat_secondsLeft (deadline now : Time) :
    ((secondsLeft deadline now).toNat : Int) =
      if 0 < (deadline - now).toInt then (deadline - now).toInt / 1000 else 0 := by
  have hhi := BitVec.toInt_lt (x := deadline - now)
  unfold secondsLeft
  simp only [show signedDiff deadline now = (deadline - now).toInt from rfl]
  by_cases h : 0 < (deadline - now).toInt
  · rw [if_neg (by omega), if_pos h, BitVec.toNat_ofInt]
    omega
  · rw [if_pos (by omega), if_neg h]
    rfl

theorem toNat_timerLeft (s : State) :
    (s.timerLeft.toNat : Int) =
      if s.offDeadline ≠ 0 ∧ 0 < (s.offDeadline - s.clock).toInt then (s.offDeadline - s.clock).toInt / 1000 else 0 := by
  unfold State.timerLeft State.armed
  by_cases h : s.offDeadline ≠ 0
  · rw [if_pos (decide_eq_true h), toNat_secondsLeft]
    simp only [and_iff_right h]
  · rw [if_neg (by simpa using h), if_neg fun hand => h hand.1]
    rfl

theorem getLsbD_eq_of_div_mod {w : Nat} {x : BitVec w} {k : Nat} {b : Bool} (h : x.toNat / 2 ^ k % 2 = b.toNat) :
    x.getLsbD k = b := by
  rw [BitVec.getLsbD, Nat.testBit_eq_decide_div_mod_eq, h]
  cases b <;> rfl

theorem extractLsb'_eq_of_div_mod {w n : Nat} {x : BitVec w} {k : Nat} {y : BitVec n}
    (h : x.toNat / 2 ^ k % 2 ^ n = y.toNat) : x.extractLsb' k n = y := by
  apply BitVec.eq_of_toNat_eq
  rw [BitVec.extractLsb'_toNat, Nat.shiftRight_eq_div_pow, h]

/-- The digits of the status record, one per field (R88). -/
theorem statusWord_div_mod (s : State) :
    s.statusWord.toNat / 2 ^ 49 % 2 = s.powerOn.toNat ∧
    s.statusWord.toNat / 2 ^ 48 % 2 = (modeBit s.mode).toNat ∧
    s.statusWord.toNat / 2 ^ 41 % 2 ^ 7 = s.tempX2.toNat ∧
    s.statusWord.toNat / 2 ^ 33 % 2 ^ 8 = s.fanHex.toNat ∧
    s.statusWord.toNat / 2 ^ 32 % 2 = s.armed.toNat ∧
    s.statusWord.toNat / 2 ^ 0 % 2 ^ 32 = s.timerLeft.toNat := by
  have hpower := Bool.toNat_lt s.powerOn
  have harmed := Bool.toNat_lt s.armed
  rw [statusWord_toNat]
  omega

theorem modeBit_toNat (m : Mode) : (modeBit m).toNat = (decide (m = .cool)).toNat := by
  cases m <;> rfl

/-- Settles O23: the answer is the status word, and its fields are its digits. -/
theorem getstatusAnswersRecord : Obligations.GetstatusAnswersRecord := by
  intro s arg
  obtain ⟨hpower, hmode, htemp, hfan, harmed, htimer⟩ := statusWord_div_mod s
  refine ⟨s.statusWord, rfl, getLsbD_eq_of_div_mod hpower, getLsbD_eq_of_div_mod (hmode.trans (modeBit_toNat _)),
    extractLsb'_eq_of_div_mod htemp, extractLsb'_eq_of_div_mod hfan, getLsbD_eq_of_div_mod harmed, ?_⟩
  rw [extractLsb'_eq_of_div_mod htimer]
  exact toNat_timerLeft s

end Sys2Proof.Machine
end

section
namespace Sys2Proof.Machine

/-! ### `EncodeFrame` (41 R150 to R155) -/

theorem read_encodeFrame {m : Mode} {t : Temp} {f : Byte} {s : State} {i : Nat} (hi : i < 39) :
    (encodeFrame m t f s).frm.read i = (acFrame s.cfg m t f)[i]'(by simpa using hi) := by
  have hlen := length_acFrame s.cfg m t f
  rw [encodeFrame_eq]
  simp only
  rw [Memory.read_append_left _ _ _ fun c hc => by have := frmBeyond_le _ c hc; omega]
  simpa using Memory.read_listed (acFrame s.cfg m t f) 0 i (by omega)

section
variable (m : Mode) (t : Temp) (f : Byte) (s : State)

theorem read_encodeFrame_beyond {i : Nat} (hi : 39 ≤ i) : (encodeFrame m t f s).frm.read i = s.frm.read i := by
  rw [encodeFrame_eq]
  exact read_listed_beyond _ _ _ _ (length_acFrame _ _ _ _) hi

theorem read_encodeFrame_payload {i : Nat} (hi : i < 39) (h19 : i ≠ 19) (h38 : i ≠ 38) :
    (encodeFrame m t f s).frm.read i = payloadByte s.cfg m t f i := by
  rw [read_encodeFrame hi]
  simp [acFrame, h19, h38]

theorem map_read_encodeFrame {l : List Nat} (h : ∀ i ∈ l, i < 39 ∧ i ≠ 19 ∧ i ≠ 38) :
    l.map (encodeFrame m t f s).frm.read = l.map (payloadByte s.cfg m t f) :=
  List.map_congr_left fun i hi =>
    have ⟨hlt, h19, h38⟩ := h i hi
    read_encodeFrame_payload m t f s hlt h19 h38

end

theorem clamp_natCast (n lo hi : Nat) (h : lo ≤ hi) : clamp n lo hi = (max lo (min hi n) : Nat) := by
  unfold clamp
  split_ifs <;> omega

theorem tempByte_eq (t : Temp) : tempByte t = BitVec.ofNat 8 (max 36 (min 64 t.toNat)) := by
  have h : clamp t.toNat tempMin tempMax = _ := clamp_natCast t.toNat 36 64 (by decide)
  rw [tempByte, h, BitVec.ofInt_natCast]

/-- Settles O30: the frame of R52, byte by byte. -/
theorem encodedFrameLayout : Obligations.EncodedFrameLayout := by
  rintro s t m temp fan rfl
  refine ⟨?_, ?_, ?_, ?_, fun i hi h19 h26 h28 h38 => ?_, fun i hi => read_encodeFrame_beyond m temp fan s hi⟩
  · rw [read_encodeFrame_payload m temp fan s (by decide) (by decide) (by decide)]
    exact tempByte_eq temp
  · exact read_encodeFrame_payload m temp fan s (by decide) (by decide) (by decide)
  · rw [map_read_encodeFrame m temp fan s (by decide), read_encodeFrame (by decide)]
    simp [acFrame, List.range_eq_range']
  · rw [map_read_encodeFrame m temp fan s (by decide), read_encodeFrame (by decide)]
    simp [acFrame]
  · rw [read_encodeFrame_payload m temp fan s hi h19 h38, payloadByte, if_neg h26, if_neg h28]

/-! ### The temperature text (30 R104) -/

/-- Settles O58: half degrees are whole degrees and a half for an odd value. -/
theorem temperatureTextOfExamples : Obligations.TemperatureTextOfExamples := by
  unfold Obligations.TemperatureTextOfExamples
  decide

end Sys2Proof.Machine
end

section
namespace Sys2Proof.Machine

/-! ### Saturated temperature and modular deadline (40 R129, R131) -/

theorem clamp_temp_eq (v : Int) : clamp v tempMin tempMax = (max 36 (min 64 v.toNat) : Nat) := by
  unfold clamp tempMin tempMax
  split_ifs <;> omega

/-- The saturated sum in natural numbers: a sum below 0 saturates as 0 does. -/
theorem steppedTemp_eq (t : Temp) (delta : Int) :
    steppedTemp t delta = BitVec.ofNat 7 (max 36 (min 64 (t.toNat + delta).toNat)) := by
  rw [steppedTemp, clamp_temp_eq, BitVec.ofInt_natCast]

theorem steppedTemp_one (t : Temp) : steppedTemp t 1 = BitVec.ofNat 7 (max 36 (min 64 (t.toNat + 1))) := by
  rw [steppedTemp_eq, show ((t.toNat : Int) + 1).toNat = t.toNat + 1 by omega]

theorem steppedTemp_neg_one (t : Temp) : steppedTemp t (-1) = BitVec.ofNat 7 (max 36 (min 64 (t.toNat - 1))) := by
  rw [steppedTemp_eq, show ((t.toNat : Int) + -1).toNat = t.toNat - 1 by omega]

theorem deadlineAfter_natCast (now : Time) (minutes : Nat) :
    deadlineAfter now minutes = BitVec.ofNat 32 ((now.toNat + minutes * 60000) % 2 ^ 32) := by
  have hms : (minutes : Int) * msPerMinute = (minutes * 60000 : Nat) := by simp [msPerMinute]
  apply BitVec.eq_of_toNat_eq
  rw [deadlineAfter, hms, BitVec.ofInt_natCast]
  simp

/-! ### The timer commands (40 R124, R125) -/

theorem execArmtimer_of_nonpos {minutes : Int} (s : State) (h : minutes ≤ 0) :
    execArmtimer minutes s = .next (raiseError .invalidTimerDuration s) := by
  rw [execArmtimer, if_pos h]

theorem execArmtimer_of_pos {minutes : Int} (s : State) (h : 0 < minutes) :
    execArmtimer minutes s = .next (s.setOffDeadline (deadlineAfter s.clock minutes)).respondOk := by
  rw [execArmtimer, if_neg (Int.not_le.mpr h)]

/-- Settles O17: the integer deadline of R131 is the modular sum. -/
theorem armtimerSetsDeadline : Obligations.ArmtimerSetsDeadline := by
  intro s minutes hpos
  refine ⟨?_, fun cmd hop harg => ?_⟩
  · have hexec : exec (.armtimer minutes) s = _ := execArmtimer_of_pos s (Int.natCast_pos.mpr hpos)
    rw [hexec, deadlineAfter_natCast]
    rfl
  · rw [execute_ok _ _ s (decode_armtimer cmd hop), sext32, harg]

/-- Settles O22: `op` 6 decodes to the command, whose two writes leave a deadline of 0. -/
theorem canceltimerDisarms : Obligations.CanceltimerDisarms :=
  ⟨fun s cmd hop => execute_ok _ _ s (decode_canceltimer cmd hop), fun _ _ => ⟨rfl, rfl⟩⟩

/-! ### `SETMODE` (40 R120) -/

/-- Settles O11: a recognised token writes the four registers, then the frame of them is sent. -/
theorem setmodeSetsModeAndTransmits : Obligations.SetmodeSetsModeAndTransmits := by
  rintro s token m temp fan hcap htoken rfl
  obtain ⟨hm, rfl⟩ : modeOperand token = some m ∧ temp = defaultTemp m := by
    rcases htoken with h | h <;> cases h <;> exact ⟨rfl, rfl⟩
  have hexec : exec (.setmode token) s = _ := execSetmode_recognised token m s hm hcap
  rw [hexec, setmodeWrites_eq]
  exact ⟨_, rfl, transmitted_buffers s _ (length_acFrame _ _ _ _), rfl⟩

/-! ### `STEPTEMP` (40 R121) -/

theorem exec_steptemp_positive (s : State) :
    exec (.steptemp .positive) s = .next
      ((transmitIfOn (s.setTempX2 (BitVec.ofNat 7 (max 36 (min 64 (s.tempX2.toNat + 1)))))).finish State.respondOk) := by
  rw [← steppedTemp_one]
  rfl

theorem exec_steptemp_negative (s : State) :
    exec (.steptemp .negative) s = .next
      ((transmitIfOn (s.setTempX2 (BitVec.ofNat 7 (max 36 (min 64 (s.tempX2.toNat - 1)))))).finish State.respondOk) := by
  rw [← steppedTemp_neg_one]
  rfl

/-- Settles O12: while off the command ends with the register write and the answer. -/
theorem steptempWhileOffOnlySteps : Obligations.SteptempWhileOffOnlySteps := by
  intro s hoff
  have hsilent (temp : Temp) : transmitIfOn (s.setTempX2 temp) = .going (s.setTempX2 temp) := transmitIfOn_off _ hoff
  constructor
  · rw [exec_steptemp_positive, hsilent]
    rfl
  · rw [exec_steptemp_negative, hsilent]
    rfl

/-- Settles O13: the frame is sent whether or not the clamp changed the register. -/
theorem steptempWhileOnRetransmits : Obligations.SteptempWhileOnRetransmits := by
  intro s token temp hon hcap hstep
  have hexec : exec (.steptemp token) s = .next ((transmitIfOn (s.setTempX2 temp)).finish State.respondOk) := by
    rcases hstep with ⟨rfl, rfl⟩ | ⟨rfl, rfl⟩
    · exact exec_steptemp_positive s
    · exact exec_steptemp_negative s
  rw [hexec, transmitIfOn_on (s.setTempX2 temp) hon hcap]
  exact ⟨_, rfl, transmitted_buffers (s.setTempX2 temp) _ (length_acFrame _ _ _ _), rfl⟩

/-! ### `POWEROFF` (40 R123) -/

/-- Settles O15: `op` 4 decodes to the command, which forces off whatever `powerOn` holds. -/
theorem poweroffSendsOffFrame : Obligations.PoweroffSendsOffFrame := by
  refine ⟨fun s cmd hop => execute_ok _ _ s (decode_poweroff cmd hop), fun s arg hcap => ?_⟩
  have hexec : exec (.poweroff arg) s = _ := execPoweroff_eq arg s hcap
  rw [hexec]
  exact ⟨_, rfl, transmitted_buffers s _ (length_offFrame _), rfl⟩

end Sys2Proof.Machine
end

section
namespace Sys2Proof.Machine

/-! ### What the commands leave alone -/

/-- `t` is `s` but for the outputs: the buffers inside the extents of one transmission, the latch, the trace and the
responses. -/
def OutputsOnly (s t : State) : Prop :=
  ∃ fault frm pls plsLen trace responses,
    t = { s with
          fault := fault, frm := frm, pls := pls, plsLen := plsLen, trace := trace, responses := responses } ∧
    (∀ a, 39 ≤ a → frm.read a = s.frm.read a) ∧ ∀ a, 632 ≤ a → pls.read a = s.pls.read a

theorem OutputsOnly.refl (s : State) : OutputsOnly s s :=
  ⟨_, _, _, _, _, _, rfl, fun _ _ => rfl, fun _ _ => rfl⟩

theorem OutputsOnly.respond {s t : State} (h : OutputsOnly s t) (code : ResponseCode) (payload : Option StatusWord) :
    OutputsOnly s (t.respond code payload) := by
  obtain ⟨_, _, _, _, _, _, rfl, hfrm, hpls⟩ := h
  exact ⟨_, _, _, _, _, _, rfl, hfrm, hpls⟩

theorem OutputsOnly.respondOk {s t : State} (h : OutputsOnly s t) : OutputsOnly s t.respondOk := h.respond _ _

theorem transmitted_outputsOnly (s : State) {frame : List Byte} (h : frame.length = 39) :
    OutputsOnly s (transmitted s frame) := by
  obtain ⟨-, -, hfrm, -, hpls⟩ := transmitted_buffers s frame h
  exact ⟨_, _, _, _, _, _, rfl, hfrm, hpls⟩

theorem AbandonedFrom.outputsOnly {s : State} {r : Run} (h : AbandonedFrom s r) (f : State → State) :
    OutputsOnly s (r.finish f) := by
  obtain ⟨_, _, _, rfl, hfrm, hpls⟩ := h
  exact ⟨_, _, _, _, _, _, rfl, hfrm, hpls⟩

theorem transmitAC_outputsOnly (s : State) : OutputsOnly s ((transmitAC s).finish State.respondOk) := by
  by_cases hcap : 632 ≤ s.cfg.plsCap
  · rw [transmitAC_eq s hcap]
    exact (transmitted_outputsOnly s (length_acFrame _ _ _ _)).respondOk
  · exact (transmitAC_overflow s (Nat.lt_of_not_le hcap)).outputsOnly _

theorem transmitIfOn_outputsOnly (s : State) : OutputsOnly s ((transmitIfOn s).finish State.respondOk) := by
  unfold transmitIfOn
  split
  · exact transmitAC_outputsOnly s
  · exact (OutputsOnly.refl s).respondOk

theorem forcedOff_outputsOnly (s : State) :
    ∃ u, (u = s ∨ u = turnOff s) ∧ OutputsOnly u ((forcedOff s).finish State.respondOk) := by
  by_cases hcap : 632 ≤ s.cfg.plsCap
  · rw [forcedOff_eq s hcap]
    exact ⟨_, .inr rfl, (transmitted_outputsOnly (turnOff s) (length_offFrame _)).respondOk⟩
  · exact ⟨_, .inl rfl, (forcedOff_overflow s (Nat.lt_of_not_le hcap)).outputsOnly _⟩

theorem RegisterWrites.buffers_eq {s u : State} {i : Instr} (h : RegisterWrites s i u) :
    u.frm = s.frm ∧ u.pls = s.pls := by
  cases h with
  | setmode => rw [setmodeWrites_eq]; exact ⟨rfl, rfl⟩
  | unchanged | steptemp | setfan | poweroff | armtimer | canceltimer => exact ⟨rfl, rfl⟩

section
variable {s t : State}

theorem execSetmode_outputsOnly {token : ModeToken} (h : execSetmode token s = .next t) :
    ∃ u, RegisterWrites s (.setmode token) u ∧ OutputsOnly u t := by
  unfold execSetmode at h
  cases hm : modeOperand token with
  | none => rw [hm] at h; cases h; exact ⟨s, .unchanged _, (OutputsOnly.refl s).respondOk⟩
  | some m => rw [hm] at h; cases h; exact ⟨_, .setmode hm, transmitAC_outputsOnly _⟩

theorem execSteptemp_outputsOnly {token : DirectionToken} (h : execSteptemp token s = .next t) :
    ∃ u, RegisterWrites s (.steptemp token) u ∧ OutputsOnly u t := by
  unfold execSteptemp at h
  cases hd : directionOperand token with
  | none => rw [hd] at h; cases h; exact ⟨s, .unchanged _, (OutputsOnly.refl s).respondOk⟩
  | some delta => rw [hd] at h; cases h; exact ⟨_, .steptemp hd, transmitIfOn_outputsOnly _⟩

theorem execSetfan_outputsOnly {token : FanToken} (h : execSetfan token s = .next t) :
    ∃ u, RegisterWrites s (.setfan token) u ∧ OutputsOnly u t := by
  unfold execSetfan at h
  cases hf : fanOperand s.cfg token with
  | none => rw [hf] at h; cases h; exact ⟨s, .unchanged _, (OutputsOnly.refl s).respondOk⟩
  | some f => rw [hf] at h; cases h; exact ⟨_, .setfan hf, transmitIfOn_outputsOnly _⟩

theorem execPoweroff_outputsOnly {arg : Arg} (h : execPoweroff arg s = .next t) :
    ∃ u, RegisterWrites s (.poweroff arg) u ∧ OutputsOnly u t := by
  cases h
  obtain ⟨u, rfl | rfl, ho⟩ := forcedOff_outputsOnly s
  · exact ⟨_, .unchanged _, ho⟩
  · exact ⟨_, .poweroff arg, ho⟩

/-- `ARMTIMER` writes at most the deadline, and answers. -/
theorem execArmtimer_answers {minutes : Int} (h : execArmtimer minutes s = .next t) :
    ∃ u code, RegisterWrites s (.armtimer minutes) u ∧ t = u.respond code none := by
  rcases lt_or_ge 0 minutes with hpos | hle
  · cases (execArmtimer_of_pos s hpos).symm.trans h
    exact ⟨_, .ok, .armtimer hpos, rfl⟩
  · cases (execArmtimer_of_nonpos s hle).symm.trans h
    exact ⟨s, .invalidTimerDuration, .unchanged _, rfl⟩

/-- `PLAYLIGHT` emits events and answers, or only answers. -/
theorem execPlaylight_answers {token : SceneToken} (h : execPlaylight token s = .next t) :
    ∃ events code, t = (s.emitAll events).respond code none := by
  unfold execPlaylight at h
  cases hs : sceneOperand token with
  | none =>
    rw [hs] at h; cases h
    exact ⟨[], .unknownScene, by simp [raiseError, State.emitAll]⟩
  | some scene => rw [hs] at h; cases h; exact ⟨_, .ok, rfl⟩

/-- What any command can do: its register writes, then outputs. -/
theorem exec_outputsOnly {i : Instr} (h : exec i s = .next t) : ∃ u, RegisterWrites s i u ∧ OutputsOnly u t := by
  cases i with
  | setmode token => exact execSetmode_outputsOnly h
  | steptemp token => exact execSteptemp_outputsOnly h
  | setfan token => exact execSetfan_outputsOnly h
  | poweroff arg => exact execPoweroff_outputsOnly h
  | armtimer minutes =>
    obtain ⟨u, code, hw, rfl⟩ := execArmtimer_answers h
    exact ⟨u, hw, (OutputsOnly.refl u).respond _ _⟩
  | canceltimer arg => cases h; exact ⟨_, .canceltimer arg, (OutputsOnly.refl _).respondOk⟩
  | getstatus arg => cases h; exact ⟨s, .unchanged _, (OutputsOnly.refl s).respond _ _⟩
  | playlight token =>
    obtain ⟨events, code, rfl⟩ := execPlaylight_answers h
    exact ⟨s, .unchanged _, _, _, _, _, _, _, rfl, fun _ _ => rfl, fun _ _ => rfl⟩

end

/-- Settles O41: the two timer commands and `GETSTATUS` emit nothing, the light player writes no register. -/
theorem nonTransmittingCommandsFrame : Obligations.NonTransmittingCommandsFrame := by
  rintro s t i (⟨minutes, rfl⟩ | ⟨arg, rfl⟩ | ⟨arg, rfl⟩ | ⟨token, rfl⟩) h
  · obtain ⟨u, code, hw, rfl⟩ := execArmtimer_answers h
    cases hw <;> exact ⟨rfl, by simp, fun _ => rfl, fun _ => rfl, fun _ => rfl⟩
  · cases h
    exact ⟨rfl, by simp, fun _ => rfl, fun _ => rfl, fun _ => rfl⟩
  · cases h
    exact ⟨rfl, fun _ => rfl, fun _ => rfl, fun _ => rfl, fun _ => rfl⟩
  · obtain ⟨events, code, rfl⟩ := execPlaylight_answers h
    exact ⟨rfl, fun _ => rfl, fun hnot => absurd ⟨token, rfl⟩ hnot, fun _ => rfl, fun _ => rfl⟩

/-- Settles O42: each command's register writes are those its rule names, and what follows them is output. -/
theorem transmittingCommandsFrame : Obligations.TransmittingCommandsFrame := by
  intro s t i h
  obtain ⟨u, hw, _, _, _, _, _, _, rfl, hfrm, hpls⟩ := exec_outputsOnly h
  obtain ⟨hfrmEq, hplsEq⟩ := hw.buffers_eq
  rw [hfrmEq] at hfrm
  rw [hplsEq] at hpls
  refine ⟨?_, ?_, ?_, ?_, hfrm, hpls⟩
  · rintro ⟨token, rfl⟩
    cases hw with
    | unchanged => rfl
    | setmode => rw [setmodeWrites_eq]
  all_goals
    rintro ⟨_, rfl⟩
    cases hw <;> rfl

end Sys2Proof.Machine
end

section
namespace Sys2Proof.Machine

/-! ### Canonical buffers: equality and rewriting -/

section
variable {w : Nat} {m m' : Memory w}

theorem Memory.mem_iff_read (h : m.wf = true) (c : Nat × BitVec w) :
    c ∈ m ↔ m.read c.1 = c.2 ∧ c.2 ≠ Memory.unlisted w := by
  rw [Memory.wf_iff] at h
  obtain ⟨hsorted, hlisted⟩ := h
  induction m with
  | nil => simp [eq_comm]
  | cons d rest ih =>
    obtain ⟨hfirst, hrest⟩ := List.pairwise_cons.mp hsorted
    by_cases hc : c.1 = d.1
    · have hnot : c ∉ rest := fun hmem => by have := hfirst c hmem; omega
      have hd := hlisted d List.mem_cons_self
      simp only [List.mem_cons, hnot, or_false, Memory.read, hc, if_true, Prod.ext_iff, true_and]
      exact ⟨fun e => ⟨e.symm, e ▸ hd⟩, fun ⟨e, _⟩ => e.symm⟩
    · have hne : c ≠ d := fun e => hc (e ▸ rfl)
      rw [List.mem_cons, Memory.read, if_neg hc, ← ih hrest fun c hm => hlisted c (List.mem_cons_of_mem _ hm)]
      exact or_iff_right hne

/-- Canonical buffers that read alike are equal. -/
theorem Memory.eq_of_read_eq (h : m.wf = true) (h' : m'.wf = true) (hread : ∀ a, m.read a = m'.read a) : m = m' := by
  have hmem : ∀ c, c ∈ m ↔ c ∈ m' := fun c => by rw [Memory.mem_iff_read h, Memory.mem_iff_read h', hread]
  have : Std.Asymm fun c d : Nat × BitVec w => c.1 < d.1 := ⟨fun _ _ => Nat.lt_asymm⟩
  exact ((Memory.wf_iff m).mp h).1.eq_of_mem_iff ((Memory.wf_iff m').mp h').1 hmem

theorem Memory.writeN_read_self (h : m.wf = true) (a : Nat) : m.writeN a [m.read a] = m := by
  refine Memory.eq_of_read_eq (Memory.writeN_wf m a _ h) h fun b => ?_
  by_cases hb : b = a
  · subst hb
    exact Memory.read_writeN_inside m b [m.read b] 0 (by simp)
  · exact Memory.read_writeN_outside m a _ b (by rw [List.length_singleton]; omega)

theorem Memory.readN_writeN_outside (h : m.wf = true) (a : Nat) (l : List (BitVec w)) (b n : Nat)
    (hout : b + n ≤ a ∨ a + l.length ≤ b) : (m.writeN a l).readN b n = m.readN b n := by
  rw [Memory.readN_eq_map _ b n (Memory.writeN_wf m a l h), Memory.readN_eq_map m b n h]
  refine List.map_congr_left fun k hk => Memory.read_writeN_outside m a l (b + k) ?_
  have := List.mem_range.mp hk
  omega

end

/-! ### The two checksums on any canonical `FRM` (41 R154, R155, R160) -/

theorem checksum1_frm (s : State) : (checksum1 s).frm = s.frm.writeN 19 [sum8 (s.frm.readN 0 19)] := rfl

theorem checksum2_frm (s : State) : (checksum2 s).frm = s.frm.writeN 38 [sum8 (s.frm.readN 20 18)] := rfl

section
variable {s : State} (h : s.frm.wf = true)
include h

theorem checksum1_wf : (checksum1 s).frm.wf = true := Memory.writeN_wf s.frm 19 [_] h

theorem checksum2_wf : (checksum2 s).frm.wf = true := Memory.writeN_wf s.frm 38 [_] h

theorem checksum1_eq_self (hsum : s.frm.read 19 = sum8 (s.frm.readN 0 19)) : checksum1 s = s := by
  rw [checksum1, ← hsum, State.writeFrm, Memory.writeN_read_self h]

theorem checksum2_eq_self (hsum : s.frm.read 38 = sum8 (s.frm.readN 20 18)) : checksum2 s = s := by
  rw [checksum2, ← hsum, State.writeFrm, Memory.writeN_read_self h]

theorem read_checksum1 : (checksum1 s).frm.read 19 = sum8 ((checksum1 s).frm.readN 0 19) := by
  rw [checksum1_frm, Memory.readN_writeN_outside h 19 _ 0 19 (.inl (by decide))]
  exact Memory.read_writeN_inside s.frm 19 [_] 0 Nat.one_pos

theorem read_checksum2 : (checksum2 s).frm.read 38 = sum8 ((checksum2 s).frm.readN 20 18) := by
  rw [checksum2_frm, Memory.readN_writeN_outside h 38 _ 20 18 (.inl (by decide))]
  exact Memory.read_writeN_inside s.frm 38 [_] 0 Nat.one_pos

/-- `Checksum2` leaves checksum 1 standing: it writes neither byte 19 nor a byte that `Checksum1` reads. -/
theorem checksum2_keeps_checksum1 (hsum : s.frm.read 19 = sum8 (s.frm.readN 0 19)) :
    (checksum2 s).frm.read 19 = sum8 ((checksum2 s).frm.readN 0 19) := by
  rw [checksum2_frm, Memory.readN_writeN_outside h 38 _ 0 19 (.inl (by decide)),
    Memory.read_writeN_outside _ 38 _ 19 (.inl (by decide)), hsum]

theorem checksums_idempotent : checksum2 (checksum1 (checksum2 (checksum1 s))) = checksum2 (checksum1 s) := by
  have h₁ := checksum1_wf h
  have h₂ := checksum2_wf h₁
  rw [checksum1_eq_self h₂ (checksum2_keeps_checksum1 h₁ (read_checksum1 h)), checksum2_eq_self h₂ (read_checksum2 h₁)]

end

/-! ### The frame that stands in `FRM` -/

theorem readN_transmitted (s : State) {frame : List Byte} (hlen : frame.length = 39) :
    (transmitted s frame).frm.readN 0 39 = frame := by
  obtain ⟨-, hfrm, -⟩ := transmitted_buffers s frame hlen
  exact hfrm

theorem readN_encodeFrame (m : Mode) (t : Temp) (f : Byte) (s : State) :
    (encodeFrame m t f s).frm.readN 0 39 = acFrame s.cfg m t f := by
  rw [encodeFrame_eq]
  exact readN_transmitted s (length_acFrame s.cfg m t f)

theorem readN_copyOff (s : State) : (copyOff s).frm.readN 0 39 = offFrame s.cfg := by
  rw [copyOff_eq]
  exact readN_transmitted s (length_offFrame s.cfg)

/-- A transmission of a consistent frame sends what then stands in `FRM` (41 R159). -/
theorem transmitted_sends_frm (s : State) {frame : List Byte} (hsums : ChecksumsConsistent frame) :
    (transmitted s frame).trace = s.trace ++ [acSend ((transmitted s frame).frm.readN 0 39)] ∧
      ChecksumsConsistent ((transmitted s frame).frm.readN 0 39) := by
  rw [readN_transmitted s hsums.1]
  exact ⟨rfl, hsums⟩

theorem plsCap_ge_of_wellFormed {cfg : Cfg} (h : cfg.WellFormed) : 632 ≤ cfg.plsCap := by
  obtain ⟨-, -, -, -, -, -, hcap, -⟩ := h
  exact hcap

/-- Settles O31: the second pass finds both sums standing, and what stands in `FRM` after an encode is a function of
`CFG` and the inputs. -/
theorem checksumsAreIdempotent : Obligations.ChecksumsAreIdempotent := by
  refine ⟨fun s h => checksums_idempotent h, fun s s' m temp fan hcfg => ?_⟩
  rw [readN_encodeFrame, readN_encodeFrame, hcfg]

/-- Settles O34: the frame in `FRM` is the encoded or the OFF frame, a transmission sends it, and both are
consistent. -/
theorem sentFramesHaveConsistentChecksums : Obligations.SentFramesHaveConsistentChecksums := by
  refine ⟨fun s m temp fan => ?_, fun s hcfg => ?_, fun s hcfg => ?_, acFrame_checksums,
    fun _ hcfg => offFrame_checksums hcfg⟩
  · rw [readN_encodeFrame]
    exact acFrame_checksums _ _ _ _
  · rw [readN_copyOff]
    exact offFrame_checksums hcfg
  · have hcap := plsCap_ge_of_wellFormed hcfg
    exact ⟨⟨_, transmitAC_eq s hcap, transmitted_sends_frm s (acFrame_checksums _ _ _ _)⟩,
      ⟨_, transmitOff_eq s hcap, transmitted_sends_frm s (offFrame_checksums hcfg)⟩⟩

/-! ### The encoded frame and its template (41 R154, R155, R158) -/

/-- The frame reads its payload bytes and neither checksum offset. -/
theorem acFrame_congr {cfg cfg' : Cfg} {m : Mode} {t : Temp} {f : Byte}
    (h : ∀ i, i < 39 → i ≠ 19 → i ≠ 38 → payloadByte cfg m t f i = payloadByte cfg' m t f i) :
    acFrame cfg m t f = acFrame cfg' m t f := by
  have hpayload : ∀ l : List Nat, (∀ i ∈ l, i < 39 ∧ i ≠ 19 ∧ i ≠ 38) →
      l.map (payloadByte cfg m t f) = l.map (payloadByte cfg' m t f) := fun l hl =>
    List.map_congr_left fun i hi =>
      have ⟨hlt, h19, h38⟩ := hl i hi
      h i hlt h19 h38
  refine List.map_congr_left fun i hi => ?_
  rw [hpayload (List.range' 0 19) (by decide), hpayload (List.range' 20 18) (by decide)]
  split_ifs with h19 h38
  · rfl
  · rfl
  · exact h i (List.mem_range.mp hi) h19 h38

/-- Settles O33: bytes 26 and 28 of the payload are the patches, and no checksum offset is read. -/
theorem overwrittenTemplateBytesDoNotMatter : Obligations.OverwrittenTemplateBytesDoNotMatter := by
  intro s s' m temp fan hagree
  rw [readN_encodeFrame, readN_encodeFrame]
  refine acFrame_congr fun i hi h19 h38 => ?_
  unfold payloadByte
  split_ifs with h26 h28
  · rfl
  · rfl
  · exact hagree i hi (by simp [h19, h26, h28, h38])

section
variable {cfg : Cfg} {m : Mode} (t : Temp) (f : Byte) (hlen : (template cfg m).length = 39)
include hlen

theorem map_payloadByte_low : (List.range' 0 19).map (payloadByte cfg m t f) = (template cfg m).take 19 := by
  apply List.ext_getElem
  · simp [hlen]
  · intro i h₁ h₂
    have hi : i < 19 := by simpa using h₁
    simp [payloadByte, show i ≠ 26 by omega, show i ≠ 28 by omega, show i < (template cfg m).length by omega]

/-- The second payload is the template's with two bytes replaced: offsets 26 and 28 of the frame. -/
theorem map_payloadByte_high : (List.range' 20 18).map (payloadByte cfg m t f) =
    ((((template cfg m).drop 20).take 18).set 6 (tempByte t)).set 8 f := by
  apply List.ext_getElem
  · simp [hlen]
  · intro i h₁ h₂
    have hi : i < 18 := by simpa using h₁
    simp only [List.getElem_map, List.getElem_range', Nat.one_mul, payloadByte, List.getElem_set, List.getElem_take,
      List.getElem_drop]
    by_cases htemp : i = 6
    · subst htemp; rfl
    by_cases hfan : i = 8
    · subst hfan; rfl
    rw [if_neg (by omega), if_neg (by omega), if_neg (Ne.symm hfan), if_neg (Ne.symm htemp), List.getD_eq_getElem]

end

/-- `sum8` is the sum of a list in the ring of bytes, so replacing a byte moves it by the difference. -/
theorem sum8_set (l : List Byte) (i : Nat) (v : Byte) (hi : i < l.length) :
    sum8 (l.set i v) = sum8 l - l[i] + v := by
  have h := List.sum_set' l i v
  rw [dif_pos hi, ← add_assoc, ← sub_eq_add_neg] at h
  exact h

/-- Settles O32: the first payload is the template's, the second has two bytes replaced. -/
theorem checksumClosedForms : Obligations.ChecksumClosedForms := by
  intro cfg m temp fan hlen
  obtain ⟨-, h19, h38⟩ := acFrame_checksums cfg m temp fan
  rw [acFrame_take, map_payloadByte_low temp fan hlen] at h19
  rw [acFrame_drop_take, map_payloadByte_high temp fan hlen, sum8_set _ 8 _ (by simp [hlen]),
    sum8_set _ 6 _ (by simp [hlen]), tempByte_eq] at h38
  refine ⟨h19, h38.trans (congrArg some ?_)⟩
  rw [List.getD_eq_getElem _ _ (by omega), List.getD_eq_getElem _ _ (by omega), List.getElem_set_ne (by decide)]
  simp only [List.getElem_take, List.getElem_drop]
  ring

end Sys2Proof.Machine
end

section
namespace Sys2Proof.Machine

/-! ### Block writes and single appends (42_raw_waveform_encoder.md R170, R180) -/

theorem Run.andThen_congr {r : Run} {f g : State → Run} (h : ∀ t, r = .going t → f t = g t) :
    r.andThen f = r.andThen g := by
  cases r with
  | going t => exact h t rfl
  | abandoned t => rfl

theorem appendAll_append (l l' : List Duration) (s : State) :
    appendAll (l ++ l') s = (appendAll l s).andThen (appendAll l') := by
  simp only [funext (appendAll_eq_forEach l'), appendAll_eq_forEach, forEach_append]

theorem appendAll_singleton (d : Duration) : appendAll [d] = append d := by
  funext s
  rw [appendAll_eq_forEach, forEach_cons]
  cases append d s <;> rfl

/-- Two entries in one block are two `Append`s. -/
theorem appendAll_pair (d d' : Duration) (s : State) : appendAll [d, d'] s = (append d s).andThen (append d') := by
  rw [← appendAll_singleton d, ← appendAll_singleton d', ← appendAll_append]
  rfl

theorem appendAll_flatMap {α : Type} (g : α → List Duration) (xs : List α) (s : State) :
    appendAll (xs.flatMap g) s = forEach xs (fun x => appendAll (g x)) s := by
  induction xs generalizing s with
  | nil => rfl
  | cons x xs ih => rw [List.flatMap_cons, appendAll_append, forEach_cons, funext ih]

/-- An encode reads `FRM` while it fills `PLS`: no `Append` disturbs what it reads. -/
theorem appendAll_keeps_frm {l : List Duration} {s t : State} (h : appendAll l s = .going t) : t.frm = s.frm := by
  by_cases hfit : l.length ≤ s.cfg.plsCap - s.plsLen
  · rw [appendAll_fits l s hfit] at h; cases h; rfl
  · rw [appendAll_overflows l s hfit] at h; cases h

theorem emitBitSingly_eq_appendAll (b : Bool) (s : State) : emitBitSingly b s = appendAll [tBitMark, bitSpace b] s :=
  (appendAll_pair _ _ s).symm

theorem emitByteSingly_eq_appendAll (v : Byte) (s : State) : emitByteSingly v s = appendAll (byteBits v) s := by
  rw [byteBits, appendAll_flatMap, emitByteSingly]
  simp only [funext (emitBitSingly_eq_appendAll _)]

/-- Bytes read one by one as they are sent are the bytes read before the first is sent. -/
theorem forEach_emitByteSingly_eq_appendAll (idx : List Nat) (s : State) :
    forEach idx (fun i st => emitByteSingly (st.frm.read i) st) s = appendAll (bits (idx.map s.frm.read)) s := by
  induction idx generalizing s with
  | nil => rfl
  | cons i idx ih =>
    have hcons : bits ((i :: idx).map s.frm.read) = byteBits (s.frm.read i) ++ bits (idx.map s.frm.read) := rfl
    rw [forEach_cons, hcons, appendAll_append, emitByteSingly_eq_appendAll]
    exact Run.andThen_congr fun t ht => by rw [ih, appendAll_keeps_frm ht]

/-- One IR frame: header, bytes and trailer by single appends are one block write. -/
theorem emitFrameSingly_eq_emitFrame (first last : Nat) (tail : Duration) {s : State} (hs : s.frm.wf = true) :
    emitFrameSingly first last tail s = emitFrame first last tail s := by
  have hread : s.frm.readN first (last + 1 - first) = (List.range' first (last + 1 - first)).map s.frm.read := by
    rw [Memory.readN_eq_map _ _ _ hs, List.range'_eq_map_range, List.map_map]; rfl
  rw [emitFrame, framePulses, hread, appendAll_append, appendAll_append, Run.andThen_assoc, emitFrameSingly,
    ← appendAll_pair]
  refine Run.andThen_congr fun t ht => ?_
  rw [forEach_emitByteSingly_eq_appendAll, appendAll_keeps_frm ht]
  exact Run.andThen_congr fun u _ => (appendAll_pair _ _ u).symm

/-- Settles O35: block by block, since the first IR frame leaves the bytes of the second in `FRM`. -/
theorem encodeWaveIsSingleAppends : Obligations.EncodeWaveIsSingleAppends := by
  intro s hs
  rw [encodeWave, encodeWaveSingly, emitFrameSingly_eq_emitFrame 0 19 tGap (s := s.setPlsLen 0) hs]
  refine Run.andThen_congr fun t ht => (emitFrameSingly_eq_emitFrame 20 38 tEnd ?_).symm
  rw [appendAll_keeps_frm ht]
  exact hs

/-- Settles O37: the two `Append`s as one block of two entries. -/
theorem bitIsMarkThenSpace : Obligations.BitIsMarkThenSpace := by
  intro s hroom b
  have hfit : 2 ≤ s.cfg.plsCap - s.plsLen := by omega
  exact ⟨_, (emitBitSingly_eq_appendAll b s).trans (appendAll_fits _ s hfit), rfl,
    Memory.read_writeN_inside s.pls s.plsLen [tBitMark, bitSpace b] 0 (by simp),
    Memory.read_writeN_inside s.pls s.plsLen [tBitMark, bitSpace b] 1 (by simp)⟩

/-- An IR frame of `n` bytes that fits fills `16 * n + 4` entries (R179). -/
theorem emitFrame_fits {first last n : Nat} (tail : Duration) {s : State} (hn : last + 1 - first = n)
    (hroom : s.plsLen + (16 * n + 4) ≤ s.cfg.plsCap) :
    ∃ t, emitFrame first last tail s = .going t ∧ t.plsLen = s.plsLen + (16 * n + 4) ∧ t.cfg = s.cfg := by
  subst hn
  refine ⟨_, appendAll_fits _ s ?_, ?_, rfl⟩
  · rw [length_framePulses, Memory.length_readN]; omega
  · rw [length_framePulses, Memory.length_readN]

/-- Settles O39: 20 bytes, then 19. -/
theorem waveLengthsAreFixed : Obligations.WaveLengthsAreFixed := by
  intro s hcap
  obtain ⟨t₁, h₁, hlen₁, hcfg⟩ := emitFrame_fits (first := 0) (last := 19) (s := s.setPlsLen 0) tGap rfl
    (by simp only [State.setPlsLen_plsLen, State.setPlsLen_cfg]; omega)
  obtain ⟨t₂, h₂, hlen₂, -⟩ := emitFrame_fits (first := 20) (last := 38) (s := t₁) tEnd rfl
    (by rw [hlen₁, hcfg]; simp only [State.setPlsLen_plsLen, State.setPlsLen_cfg]; omega)
  exact ⟨t₁, t₂, h₁, hlen₁, h₂, hlen₂.trans (congrArg (· + _) hlen₁), by rw [encodeWave, h₁, Run.andThen_going, h₂]⟩

end Sys2Proof.Machine
end

section
namespace Sys2Proof.Machine

/-! ### Marks and spaces (R185) -/

theorem bitSpace_ne_zero (b : Bool) : bitSpace b ≠ 0 := by cases b <;> decide

section
variable (l : List Byte) (tail : Duration) {j : Nat}

/-- The even entries of an IR frame are its marks. -/
theorem getElem?_framePulses_mark (hj : j < 8 * l.length + 2) :
    ∃ d, (framePulses l tail)[2 * j]? = some d ∧ d ≠ 0 := by
  obtain rfl | hpos := Nat.eq_zero_or_pos j
  · exact ⟨tHdrMark, rfl, by decide⟩
  · refine ⟨tBitMark, ?_, by decide⟩
    obtain hbits | rfl : j - 1 < 8 * l.length ∨ j = 8 * l.length + 1 := by omega
    · rw [show 2 * j = 2 + 16 * ((j - 1) / 8) + 2 * ((j - 1) % 8) by omega]
      exact (getElem?_framePulses_bit l tail (by omega) (by omega)).1
    · rw [show 2 * (8 * l.length + 1) = 16 * l.length + 2 by omega]
      exact (getElem?_framePulses_trailer l tail).1

/-- The odd entries before the last are the header space and the spaces that code bits. -/
theorem getElem?_framePulses_space (hj : j < 8 * l.length + 1) :
    ∃ d, (framePulses l tail)[2 * j + 1]? = some d ∧ d ≠ 0 := by
  obtain rfl | hpos := Nat.eq_zero_or_pos j
  · exact ⟨tHdrSpace, rfl, by decide⟩
  · rw [show 2 * j + 1 = 3 + 16 * ((j - 1) / 8) + 2 * ((j - 1) % 8) by omega]
    obtain ⟨-, hspace⟩ := getElem?_framePulses_bit l tail (i := (j - 1) / 8) (k := (j - 1) % 8) (by omega) (by omega)
    exact ⟨_, hspace, bitSpace_ne_zero _⟩

end

section
variable {frame : List Byte} (hf : frame.length = 39) {j : Nat}
include hf

theorem getElem?_wave_mark (hj : j < 316) : ∃ d, (wave frame)[2 * j]? = some d ∧ d ≠ 0 := by
  by_cases hfirst : j < 162
  · rw [getElem?_wave_first hf (by omega)]
    exact getElem?_framePulses_mark _ _ (by simp; omega)
  · obtain ⟨k, rfl⟩ := Nat.exists_eq_add_of_le (Nat.le_of_not_lt hfirst)
    rw [show 2 * (162 + k) = 324 + 2 * k by omega, getElem?_wave_second hf]
    exact getElem?_framePulses_mark _ _ (by simp; omega)

theorem getElem?_wave_space (hj : j < 315) : ∃ d, (wave frame)[2 * j + 1]? = some d ∧ d ≠ 0 := by
  obtain hfirst | rfl | hsecond : j < 161 ∨ j = 161 ∨ 162 ≤ j := by omega
  · rw [getElem?_wave_first hf (by omega)]
    exact getElem?_framePulses_space _ _ (by simp; omega)
  · exact ⟨tGap, (getElem?_wave_first_trailer hf).2, by decide⟩
  · obtain ⟨k, rfl⟩ := Nat.exists_eq_add_of_le hsecond
    rw [show 2 * (162 + k) + 1 = 324 + (2 * k + 1) by omega, getElem?_wave_second hf]
    exact getElem?_framePulses_space _ _ (by simp; omega)

end

/-- Settles O38: the gap between the IR frames is a nonzero space, so only the space that ends the second is zero. -/
theorem waveAlternatesMarkAndSpace : Obligations.WaveAlternatesMarkAndSpace := by
  intro frame hf i hi
  refine ⟨fun heven => ?_, fun hodd => ⟨fun hzero => ?_, ?_⟩⟩
  · rw [show i = 2 * (i / 2) by omega]
    exact getElem?_wave_mark hf (by omega)
  · by_contra hlast
    obtain ⟨d, hd, hne⟩ := getElem?_wave_space hf (j := i / 2) (by omega)
    rw [show 2 * (i / 2) + 1 = i by omega, hzero] at hd
    exact hne (Option.some.inj hd).symm
  · rintro rfl
    exact (getElem?_wave_second_trailer hf).2

/-! ### The length of a transmission (R183) -/

@[simp] theorem pulseTime_nil : pulseTime [] = 0 := rfl

@[simp] theorem pulseTime_cons (d : Duration) (l : List Duration) : pulseTime (d :: l) = d.toNat + pulseTime l := rfl

@[simp] theorem pulseTime_append (l l' : List Duration) : pulseTime (l ++ l') = pulseTime l + pulseTime l' := by
  simp [pulseTime]

/-- A 0 bit takes 860 µs, a 1 bit 870 µs more. -/
theorem pulseTime_bit (b : Bool) : pulseTime [tBitMark, bitSpace b] = 860 + 870 * b.toNat := by cases b <;> rfl

theorem pulseTime_flatMap_bits (v : Byte) (ks : List Nat) :
    pulseTime (ks.flatMap fun k => [tBitMark, bitSpace (v.getLsbD k)]) =
      860 * ks.length + 870 * (ks.map fun k => (v.getLsbD k).toNat).sum := by
  induction ks with
  | nil => rfl
  | cons k ks ih =>
    rw [List.flatMap_cons, pulseTime_append, pulseTime_bit, ih, List.map_cons, List.sum_cons, List.length_cons]
    omega

theorem pulseTime_byteBits (v : Byte) : pulseTime (byteBits v) = 6880 + 870 * byteOnes v :=
  pulseTime_flatMap_bits v (List.range 8)

theorem pulseTime_bits (l : List Byte) : pulseTime (bits l) = 6880 * l.length + 870 * (l.map byteOnes).sum := by
  induction l with
  | nil => rfl
  | cons v vs ih =>
    have hcons : bits (v :: vs) = byteBits v ++ bits vs := rfl
    rw [hcons, pulseTime_append, pulseTime_byteBits, ih, List.map_cons, List.sum_cons, List.length_cons]
    omega

/-- Header and trailing mark take 5580 µs; the mark is the spec's decision D31. -/
theorem pulseTime_framePulses (l : List Byte) (tail : Duration) :
    pulseTime (framePulses l tail) = 5580 + tail.toNat + 6880 * l.length + 870 * (l.map byteOnes).sum := by
  have hfixed : tHdrMark.toNat = 3400 ∧ tHdrSpace.toNat = 1750 ∧ tBitMark.toNat = 430 := by decide
  obtain ⟨hmark, hspace, htrail⟩ := hfixed
  simp only [framePulses, pulseTime_append, pulseTime_cons, pulseTime_nil, pulseTime_bits, hmark, hspace, htrail]
  omega

/-- Settles O40: two IR frames, of 20 and of 19 bytes, the gap between them. -/
theorem waveDurationCountsOnes : Obligations.WaveDurationCountsOnes := by
  intro frame hf
  have hsplit : frame = frame.take 20 ++ (frame.drop 20).take 19 := by
    rw [List.take_of_length_le (l := frame.drop 20) (by simp [hf]), List.take_append_drop]
  have hones : (frame.map byteOnes).sum =
      ((frame.take 20).map byteOnes).sum + (((frame.drop 20).take 19).map byteOnes).sum := by
    rw [← List.sum_append, ← List.map_append, ← hsplit]
  have htails : tGap.toNat = 35000 ∧ tEnd.toNat = 0 := by decide
  obtain ⟨hgap, hend⟩ := htails
  have hlen₁ : (frame.take 20).length = 20 := by simp [hf]
  have hlen₂ : ((frame.drop 20).take 19).length = 19 := by simp [hf]
  rw [wave, pulseTime_append, pulseTime_framePulses, pulseTime_framePulses, hones, hgap, hend, hlen₁, hlen₂]
  omega

end Sys2Proof.Machine
end

section
namespace Sys2Proof.Machine

/-! ### Every step completes (R181) -/

/-- A word is always answered: as the command it decodes to, or as an unknown one. -/
theorem execute_completes (cmd : Cmd) (s : State) : ∃ t, execute cmd s = .next t := by
  cases h : decode cmd with
  | ok i => rw [execute_ok cmd i s h]; exact exec_completes i s
  | error e => exact ⟨_, execute_error cmd e s h⟩

theorem serviceStep_completes (s : State) : ∃ t, serviceStep s = .next t := by
  unfold serviceStep
  split
  next => exact ⟨_, rfl⟩
  next => exact ⟨_, rfl⟩
  next cmd rest _ =>
    obtain ⟨t, ht⟩ := execute_completes cmd (s.setArrivals rest)
    rw [ht]
    exact ⟨_, rfl⟩

/-- Only a halted block does not step (44 R216, 60 R234). -/
theorem step_completes {s : State} (h : s.fault = false) : ∃ t, step s = .next t := by
  cases hp : s.phase with
  | poll => exact ⟨_, step_poll s h hp⟩
  | service => rw [step_service s h hp]; exact serviceStep_completes s

/-- Settles O48: the latch is clear, so the step completes, and the invariant it keeps has the latch clear again. -/
theorem overflowIsUnreachable : Obligations.OverflowIsUnreachable := by
  intro s hs
  obtain ⟨t, ht⟩ := step_completes hs.noFault
  exact ⟨t, ht, (stepKeepsInvariant s t hs ht).noFault⟩

end Sys2Proof.Machine
end

section
namespace Sys2Proof.Machine

/-! ### The light player (43) -/

/-- An empty slot is skipped (43 R194). -/
@[simp] theorem playSlots_empty (sent : Nat) (rest : List (List Duration)) :
    playSlots sent ([] :: rest) = playSlots sent rest := rfl

/-- No delay stands before the first frame of a repetition (43 R190). -/
theorem playSlots_first {f : List Duration} (hf : f ≠ []) (rest : List (List Duration)) :
    playSlots 0 (f :: rest) = .send f 38 :: playSlots 1 rest := by
  simp [playSlots, List.length_pos_iff.mpr hf, carrierKHz]

/-- A delay stands before every later frame of a repetition (43 R190). -/
theorem playSlots_later {f : List Duration} (hf : f ≠ []) (n : Nat) (rest : List (List Duration)) :
    playSlots (n + 1) (f :: rest) = .delay 40 :: .send f 38 :: playSlots (n + 2) rest := by
  simp [playSlots, List.length_pos_iff.mpr hf, carrierKHz, lFrameMs]

/-- The six repetitions of 43 R190, each of the five delays between them set after the repetition before it. -/
theorem playScene_eq (slots : List (List Duration)) :
    playScene slots = [.delay 30] ++ (List.replicate 5 (playSlots 0 slots ++ [.delay 100])).flatten ++
      (playSlots 0 slots ++ [.delay 50]) := by
  have hreps : List.range lReps = [0, 1, 2, 3, 4, 5] := rfl
  simp [playScene, hreps, playRepetition, List.replicate_succ, lSettleMs, lRepMs, lTailMs]

/-! #### The event sequences (R191) -/

theorem playScene_three_frames {f₀ f₁ f₂ : List Duration} (h₀ : f₀ ≠ []) (h₁ : f₁ ≠ []) (h₂ : f₂ ≠ []) :
    playScene [f₀, f₁, f₂] = [.delay 30] ++
      (List.replicate 5 [Event.send f₀ 38, .delay 40, .send f₁ 38, .delay 40, .send f₂ 38, .delay 100]).flatten ++
      [.send f₀ 38, .delay 40, .send f₁ 38, .delay 40, .send f₂ 38, .delay 50] := by
  rw [playScene_eq, playSlots_first h₀, playSlots_later h₁, playSlots_later h₂]
  rfl

theorem playScene_two_frames {f₀ f₁ : List Duration} (h₀ : f₀ ≠ []) (h₁ : f₁ ≠ []) :
    playScene [f₀, f₁, []] = [.delay 30] ++
      (List.replicate 5 [Event.send f₀ 38, .delay 40, .send f₁ 38, .delay 100]).flatten ++
      [.send f₀ 38, .delay 40, .send f₁ 38, .delay 50] := by
  rw [playScene_eq, playSlots_first h₀, playSlots_later h₁, playSlots_empty]
  rfl

theorem exec_playlight_scene {token : SceneToken} {scene : Scene} (htoken : sceneOperand token = some scene) (s : State) :
    exec (.playlight token) s = .next ((s.emitAll (playScene (s.cfg.scene scene).slots)).respondOk) := by
  rw [exec, execPlaylight, htoken]

/-- Settles O27: scene `on` has three frames, `night` and `off` have two. -/
theorem playlightEmitsScene : Obligations.PlaylightEmitsScene := by
  intro s ⟨hon₀, hon₁, hon₂, hnight₀, hnight₁, hnight₂, hoff₀, hoff₁, hoff₂⟩
  refine ⟨⟨_, exec_playlight_scene (scene := .on) rfl s, ?_⟩, ⟨_, exec_playlight_scene (scene := .night) rfl s, ?_⟩,
    ⟨_, exec_playlight_scene (scene := .off) rfl s, ?_⟩⟩
  · rw [← playScene_three_frames hon₀ hon₁ hon₂]
    rfl
  · rw [← playScene_two_frames hnight₀ hnight₁, ← hnight₂]
    rfl
  · rw [← playScene_two_frames hoff₀ hoff₁, ← hoff₂]
    rfl

/-! #### Counts and total (R193) -/

/-- The frames that a repetition sends. -/
def frameCount (slots : List (List Duration)) : Nat := (slots.filter fun f => decide (f ≠ [])).length

@[simp] theorem frameCount_nil : frameCount [] = 0 := rfl

@[simp] theorem frameCount_cons_empty (rest : List (List Duration)) : frameCount ([] :: rest) = frameCount rest := rfl

theorem frameCount_cons {f : List Duration} (hf : f ≠ []) (rest : List (List Duration)) :
    frameCount (f :: rest) = frameCount rest + 1 := by
  simp [frameCount, hf]

section
variable {weight : Event → Nat} {a : Nat} (hsend : ∀ f, weight (.send f 38) = a)
include hsend

/-- Once a frame is sent, each later one comes with its delay. -/
theorem sum_weight_playSlots_later (n : Nat) (slots : List (List Duration)) :
    ((playSlots (n + 1) slots).map weight).sum = frameCount slots * (weight (.delay 40) + a) := by
  induction slots generalizing n with
  | nil => simp [playSlots]
  | cons f rest ih =>
    by_cases hf : f = []
    · subst hf
      exact ih n
    · rw [playSlots_later hf, frameCount_cons hf, List.map_cons, List.map_cons, List.sum_cons, List.sum_cons, hsend,
        ih (n + 1)]
      ring

/-- A repetition of `k` frames has `k - 1` delays. -/
theorem sum_weight_playSlots (slots : List (List Duration)) :
    ((playSlots 0 slots).map weight).sum = frameCount slots * a + (frameCount slots - 1) * weight (.delay 40) := by
  induction slots with
  | nil => simp [playSlots]
  | cons f rest ih =>
    by_cases hf : f = []
    · subst hf
      exact ih
    · rw [playSlots_first hf, frameCount_cons hf, List.map_cons, List.sum_cons, hsend,
        sum_weight_playSlots_later hsend 0, Nat.add_sub_cancel]
      ring

/-- What a playback sums to for any weight of its events that is the same for every send. -/
theorem sum_weight_playScene (slots : List (List Duration)) :
    ((playScene slots).map weight).sum = weight (.delay 30) + 6 * frameCount slots * a +
      6 * (frameCount slots - 1) * weight (.delay 40) + 5 * weight (.delay 100) + weight (.delay 50) := by
  simp only [playScene_eq, List.map_append, List.sum_append, List.map_flatten, List.sum_flatten, List.map_replicate,
    List.sum_replicate, sum_weight_playSlots hsend, List.map_cons, List.map_nil, List.sum_singleton, smul_eq_mul]
  ring

end

/-- A count is the sum of the weight that is 1 on what it counts. -/
theorem length_filter_eq_sum_map {α : Type} (p : α → Bool) (l : List α) :
    (l.filter p).length = (l.map fun e => (p e).toNat).sum := by
  induction l with
  | nil => rfl
  | cons e rest ih => cases h : p e <;> simp [h, ih, Nat.add_comm]

/-- Settles O29: sends, delays and milliseconds are three weights of the same events. -/
theorem playbackCounts : Obligations.PlaybackCounts := by
  intro slots k hk _
  obtain rfl : k = frameCount slots := hk
  refine ⟨?_, ?_, ?_⟩
  · rw [length_filter_eq_sum_map, sum_weight_playScene (fun _ => rfl)]
    simp
  · rw [length_filter_eq_sum_map, sum_weight_playScene (fun _ => rfl)]
    simp
  · rw [sum_weight_playScene (fun _ => rfl)]
    simp

end Sys2Proof.Machine
end

section
namespace Sys2Proof.Machine

/-! ### The control loop (44 R210, R216, R217) -/

@[simp] theorem endStep_offDeadline (p : Phase) (s : State) : (endStep p s).offDeadline = s.offDeadline := by
  unfold endStep
  split <;> rfl

@[simp] theorem endStep_arrivals (p : Phase) (s : State) : (endStep p s).arrivals = s.arrivals := by
  unfold endStep
  split <;> rfl

/-- The end of a step as one update: a set latch keeps the loop where it was (60 R234). -/
theorem endStep_eq (p : Phase) (s : State) :
    endStep p s =
      { s with
        phase := if s.fault then s.phase else p
        clock := s.clock + BitVec.ofNat 32 s.clockDelta
        elapse := s.elapse.tail
        stepNo := s.stepNo + 1 } := by
  unfold endStep
  split <;> rfl

theorem pollStep_idle {s : State} (he : s.expired = false) : pollStep s = endStep .service s := by
  rw [pollStep, tick_idle s he, Run.finish_going, id]

theorem pollStep_expired {s : State} (he : s.expired = true) (hcap : 632 ≤ s.cfg.plsCap) :
    pollStep s = endStep .service (turnOff (transmitted s (offFrame s.cfg))) := by
  rw [pollStep, tick_expired s he hcap]
  rfl

/-- A `SERVICE` step answers a next state in two ways: nothing is presented and it only moves on, or it executes the
word presented. -/
theorem serviceStep_eq_next {s t : State} (h : serviceStep s = .next t) :
    t = endStep .poll (s.setArrivals s.arrivals.tail) ∨
    ∃ cmd rest v, s.arrivals = some cmd :: rest ∧ execute cmd (s.setArrivals rest) = .next v ∧
      t = endStep .poll v := by
  unfold serviceStep at h
  split at h
  next ha =>
    cases h
    have hsame : s.setArrivals s.arrivals.tail = s := by
      rw [ha, List.tail_nil, ← ha]
      rfl
    exact .inl (by rw [hsame])
  next ha => cases h; exact .inl (by rw [ha, List.tail_cons])
  next cmd rest ha =>
    obtain ⟨v, hv, rfl⟩ := endService_eq_next h
    exact .inr ⟨cmd, rest, v, ha, hv, rfl⟩

/-- A word is executed as the command it decodes to, or refused by a response and nothing else (30 R90). -/
theorem execute_eq_next {cmd : Cmd} {s v : State} (h : execute cmd s = .next v) :
    (∃ i, decode cmd = .ok i ∧ exec i s = .next v) ∨ v = s.respond .unknownCommand none := by
  cases hd : decode cmd with
  | ok i => exact .inl ⟨i, rfl, execute_ok cmd i s hd ▸ h⟩
  | error e =>
    rw [execute_error cmd e s hd] at h
    cases h
    exact .inr rfl

/-- What an expired `TICK` leaves (R212). -/
def tickedOff (s : State) : State := ((turnOff (transmitted s (offFrame s.cfg))).setPhase .service).passTime

section
variable {s : State} (hf : s.fault = false)
include hf

theorem step_poll_idle (hp : s.phase = .poll) (he : s.expired = false) :
    step s = .next (s.setPhase .service).passTime := by
  rw [step_poll s hf hp, pollStep_idle he, endStep_going _ s hf]

theorem step_poll_expired (hp : s.phase = .poll) (he : s.expired = true) (hcap : 632 ≤ s.cfg.plsCap) :
    step s = .next (tickedOff s) := by
  rw [step_poll s hf hp, pollStep_expired he hcap, endStep_going .service (turnOff (transmitted s _)) hf, tickedOff]

theorem step_serviced {cmd : Cmd} {rest : List (Option Cmd)} (hp : s.phase = .service)
    (ha : s.arrivals = some cmd :: rest) : step s = endService (execute cmd (s.setArrivals rest)) := by
  rw [step_service s hf hp, serviceStep, ha]

/-- A serviced command that does not overflow ends in `POLL`. -/
theorem step_serviced_of_exec {cmd : Cmd} {rest : List (Option Cmd)} {i : Instr} {v : State} (hp : s.phase = .service)
    (ha : s.arrivals = some cmd :: rest) (hd : decode cmd = .ok i) (hv : exec i (s.setArrivals rest) = .next v)
    (hvf : v.fault = false) : step s = .next (v.setPhase .poll).passTime := by
  rw [step_serviced hf hp ha, execute_ok cmd i _ hd, hv, endService, endStep_going .poll v hvf]

end

/-- Settles O5: the end of a step as one update. -/
theorem serviceStepRunsDecodedCommand : Obligations.ServiceStepRunsDecodedCommand := by
  intro s t cmd rest i hf hp ha hd ht
  rw [step_serviced hf hp ha, execute_ok cmd i _ hd, State.setArrivals, ht, endService, endStep_eq]

/-- A word of the table is the word presented for it (log 12). -/
theorem decode_of_decodeTableWord {nbits w : Nat} {i : Instr} (h : decodeTableWord nbits w = some i) :
    decode (BitVec.ofNat 36 (w % 2 ^ nbits)) = .ok i := by
  unfold decodeTableWord tableWord at h
  split_ifs at h
  cases hd : decode (BitVec.ofNat 36 (w % 2 ^ nbits)) with
  | ok j => simp only [hd] at h; cases h; rfl
  | error e => simp only [hd] at h; cases h

/-- Settles O6: the word stands first among the presentations of a `SERVICE` step. -/
theorem fetchWordIsServicedNext : Obligations.FetchWordIsServicedNext := by
  intro s nbits w i hf hi
  have hstep := step_serviced (s := s.withFetchWord nbits w) hf rfl rfl
  rw [hstep, execute_ok _ i _ (decode_of_decodeTableWord hi)]
  rfl

/-- Settles O7: both shapes of an idle presentation end the step at once. -/
theorem idleServiceOnlyMovesToPoll : Obligations.IdleServiceOnlyMovesToPoll := by
  intro s hf hp
  refine ⟨fun rest ha => ?_, fun ha => ?_⟩
  · have hidle : serviceStep s = .next (endStep .poll (s.setArrivals rest)) := by rw [serviceStep, ha]
    rw [step_service s hf hp, hidle, endStep_going .poll (s.setArrivals rest) hf]
    rfl
  · have hidle : serviceStep s = .next (endStep .poll s) := by rw [serviceStep, ha]
    rw [step_service s hf hp, hidle, endStep_going .poll s hf]
    rfl

end Sys2Proof.Machine
end

section
namespace Sys2Proof.Machine

/-! ### Expiry (44 R210 to R212) -/

theorem expired_iff (s : State) : s.expired = true ↔ s.offDeadline ≠ 0 ∧ 0 ≤ (s.clock - s.offDeadline).toInt := by
  simp [State.expired, State.armed, signedDiff, sext32]

theorem expired_of_disarmed {s : State} (h : s.offDeadline = 0) : s.expired = false := by
  simp [State.expired, State.armed, h]

theorem expired_of_not_passed {s : State} (h : (s.clock - s.offDeadline).toInt < 0) : s.expired = false := by
  rw [← Bool.not_eq_true, expired_iff]
  exact fun ⟨_, hpassed⟩ => absurd hpassed (Int.not_le.mpr h)

/-- Below `2^31` ms the modular distance past a deadline reads as itself. -/
theorem toInt_after_deadline (d : Time) {e : Nat} (he : e < 2 ^ 31) : (d + BitVec.ofNat 32 e - d).toInt = e := by
  rw [add_sub_cancel_left, ← BitVec.ofInt_natCast]
  exact BitVec.toInt_ofInt_eq_self (by decide) (by omega) (by omega)

/-- Below `2^31` ms the modular distance before a deadline reads as its negative. -/
theorem toInt_before_deadline (d : Time) {e : Nat} (he : e < 2 ^ 31) : (d - BitVec.ofNat 32 e - d).toInt = -e := by
  have hneg : d - BitVec.ofNat 32 e - d = BitVec.ofInt 32 (-e) := by
    rw [sub_sub_cancel_left, BitVec.ofInt_neg, BitVec.ofInt_natCast]
  rw [hneg]
  exact BitVec.toInt_ofInt_eq_self (by decide) (by omega) (by omega)

/-- Settles O10: within `2^31` ms of the deadline the difference keeps its sign. -/
theorem expiryIsSignedDifference : Obligations.ExpiryIsSignedDifference := by
  refine ⟨expired_iff, fun s e he harmed => ⟨fun hclock => ?_, fun hpos hclock => ?_⟩⟩
  · refine (expired_iff s).mpr ⟨harmed, ?_⟩
    rw [hclock, toInt_after_deadline _ he]
    omega
  · apply expired_of_not_passed
    rw [hclock, toInt_before_deadline _ he]
    omega

/-- Settles O8: the test fails, so the step ends at once. -/
theorem pollBeforeDeadlineDoesNothing : Obligations.PollBeforeDeadlineDoesNothing := by
  intro s hf hp hcases
  apply step_poll_idle hf hp
  obtain hdisarmed | hbefore := hcases
  · exact expired_of_disarmed hdisarmed
  · exact expired_of_not_passed hbefore

/-- Settles O9: one OFF transmission, then the two register writes. -/
theorem expiredPollForcesOff : Obligations.ExpiredPollForcesOff := by
  intro s hf hp hcap harmed hpassed
  have hexpired : s.expired = true := (expired_iff s).mpr ⟨harmed, hpassed⟩
  exact ⟨_, step_poll_expired hf hp hexpired hcap, transmitted_buffers s _ (length_offFrame _), rfl⟩

end Sys2Proof.Machine
end

section
namespace Sys2Proof.Machine

/-! ### Who writes the deadline (44 R214, R215) -/

/-- Settles O18: the new deadline is made of the clock and the duration alone. -/
theorem armtimerForgetsEarlierDeadline : Obligations.ArmtimerForgetsEarlierDeadline :=
  fun s d _ hpos => ⟨_, execArmtimer_of_pos s hpos, execArmtimer_of_pos { s with offDeadline := d } hpos⟩

/-- The sum of `ARMTIMER` is the sentinel exactly where it is a multiple of `2^32` (D21). -/
theorem deadlineAfter_eq_zero_iff (now : Time) (minutes : Int) :
    deadlineAfter now minutes = 0 ↔ (now.toNat + minutes * 60000) % 2 ^ 32 = 0 := by
  rw [deadlineAfter, msPerMinute, ← BitVec.toNat_inj, BitVec.toNat_add, BitVec.toNat_ofInt, BitVec.ofNat_eq_ofNat,
    BitVec.toNat_zero]
  omega

/-- The deadlines a command may leave: the one it found, 0 by the two commands that disarm, a sum by `ARMTIMER`
(R27). -/
def LeavesDeadline (s : State) (i : Instr) (d : Time) : Prop :=
  d = s.offDeadline ∨
  (d = 0 ∧ ((∃ a, i = .canceltimer a) ∨ ∃ a, i = .poweroff a)) ∨
  ∃ n, i = .armtimer n ∧ 0 < n ∧ d = deadlineAfter s.clock n

theorem RegisterWrites.leavesDeadline {s u : State} {i : Instr} (h : RegisterWrites s i u) :
    LeavesDeadline s i u.offDeadline := by
  cases h with
  | setmode => rw [setmodeWrites_eq]; exact .inl rfl
  | unchanged | steptemp | setfan => exact .inl rfl
  | poweroff arg => exact .inr (.inl ⟨rfl, .inr ⟨arg, rfl⟩⟩)
  | canceltimer arg => exact .inr (.inl ⟨rfl, .inl ⟨arg, rfl⟩⟩)
  | armtimer hpos => exact .inr (.inr ⟨_, rfl, hpos, rfl⟩)

theorem RegisterWrites.arrivals_eq {s u : State} {i : Instr} (h : RegisterWrites s i u) : u.arrivals = s.arrivals := by
  cases h with
  | setmode => rw [setmodeWrites_eq]
  | unchanged | steptemp | setfan | poweroff | armtimer | canceltimer => rfl

theorem exec_arrivals {i : Instr} {s t : State} (h : exec i s = .next t) : t.arrivals = s.arrivals := by
  obtain ⟨u, hw, _, _, _, _, _, _, rfl, -, -⟩ := exec_outputsOnly h
  exact hw.arrivals_eq

/-- A command leaves the deadline as its register writes made it. -/
theorem exec_leavesDeadline {i : Instr} {s t : State} (h : exec i s = .next t) :
    LeavesDeadline s i t.offDeadline := by
  obtain ⟨u, hw, _, _, _, _, _, _, rfl, -, -⟩ := exec_outputsOnly h
  exact hw.leavesDeadline

/-- The commands that disarm (R215; the zero sum is D21). -/
theorem exec_disarms {i : Instr} {s t : State} (h : exec i s = .next t) (hs : s.offDeadline ≠ 0)
    (ht : t.offDeadline = 0) :
    (∃ a, i = .canceltimer a) ∨ (∃ a, i = .poweroff a) ∨
      ∃ n : Int, i = .armtimer n ∧ 0 < n ∧ (s.clock.toNat + n * 60000) % 2 ^ 32 = 0 := by
  obtain hsame | ⟨-, hcancel | hoff⟩ | ⟨n, hn, hpos, hsum⟩ := exec_leavesDeadline h
  · exact absurd (hsame ▸ ht) hs
  · exact .inl hcancel
  · exact .inr (.inl hoff)
  · exact .inr (.inr ⟨n, hn, hpos, (deadlineAfter_eq_zero_iff _ _).mp (hsum ▸ ht)⟩)

/-- A step that disarms is an expired `TICK` or services a command that disarms. -/
theorem step_disarms {s t : State} (h : step s = .next t) (hs : s.offDeadline ≠ 0) (ht : t.offDeadline = 0) :
    (s.phase = .poll ∧ s.expired = true) ∨
    (s.phase = .service ∧ ∃ cmd rest i v, s.arrivals = some cmd :: rest ∧ decode cmd = .ok i ∧
      exec i (s.setArrivals rest) = .next v ∧ v.offDeadline = 0) := by
  obtain ⟨hp, rfl⟩ | ⟨hp, hserve⟩ := step_eq_next h
  · refine .inl ⟨hp, ?_⟩
    by_contra hidle
    rw [pollStep_idle (Bool.eq_false_of_not_eq_true hidle), endStep_offDeadline] at ht
    exact hs ht
  · refine .inr ⟨hp, ?_⟩
    obtain rfl | ⟨cmd, rest, v, ha, hv, rfl⟩ := serviceStep_eq_next hserve
    · rw [endStep_offDeadline] at ht
      exact absurd ht hs
    · rw [endStep_offDeadline] at ht
      obtain ⟨i, hd, hi⟩ | rfl := execute_eq_next hv
      · exact ⟨cmd, rest, i, v, ha, hd, hi, ht⟩
      · exact absurd ht hs

/-- Settles O52: what an operation leaves in the deadline says which operations can leave 0 there. -/
theorem onlyListedOperationsDisarm : Obligations.OnlyListedOperationsDisarm := by
  refine ⟨fun s t h hs ht => ?_, fun s t a h => ?_, fun s t a hcap h => ?_, fun s t n hpos hsum h => ?_,
    fun s t hp he hcap h => ?_, rfl, fun s t i h hi => ?_⟩
  · refine (step_disarms h hs ht).imp_right fun ⟨hp, cmd, rest, i, v, ha, hd, hv, hv0⟩ => ?_
    have hlisted := exec_disarms hv hs hv0
    exact ⟨hp, cmd, rest, i, ha, hd, hlisted⟩
  · cases h
    rfl
  · cases (execPoweroff_eq a s hcap).symm.trans h
    rfl
  · cases (execArmtimer_of_pos s hpos).symm.trans h
    exact (deadlineAfter_eq_zero_iff _ _).mpr hsum
  · obtain ⟨-, rfl⟩ | ⟨hservice, -⟩ := step_eq_next h
    · rw [pollStep_expired he hcap, endStep_offDeadline]
      rfl
    · exact absurd (hp.symm.trans hservice) (by decide)
  · obtain hsame | ⟨-, ⟨_, rfl⟩ | ⟨_, rfl⟩⟩ | ⟨_, rfl, -⟩ := exec_leavesDeadline h
    · exact hsame
    all_goals simp at hi

end Sys2Proof.Machine
end

section
namespace Sys2Proof.Machine

/-! ### The forced OFF happens once (44 R213) -/

/-- A property that every step keeps holds at the end of every run. -/
theorem run_preserves {M : Host.Core} {P : M.State → Prop} (hstep : ∀ {s t : M.State}, M.step s = .next t → P s → P t)
    {s t : M.State} {n : Nat} (h : M.run n s = .next t) (hs : P s) : P t := by
  induction n generalizing s with
  | zero => cases h; exact hs
  | succ n ih =>
    obtain ⟨u, hu, hrun⟩ := step_of_run_succ h
    exact ih hrun (hstep hu hs)

/-- A running block whose pulse buffer holds a frame. -/
def Unfaulted (s : State) : Prop := s.fault = false ∧ 632 ≤ s.cfg.plsCap

/-- The latch is set only where a frame does not fit (60 R234). -/
theorem step_keeps_unfaulted {s t : State} (h : step s = .next t) (hs : Unfaulted s) : Unfaulted t := by
  refine step_preserves (P := Unfaulted) (fun hb hs => ?_) (fun hw hs => ?_) (fun he hs => ?_) h hs
  · obtain ⟨_, _, _, _, _, _, rfl⟩ := hb
    exact hs
  · cases hw with
    | setmode => rw [setmodeWrites_eq]; exact hs
    | unchanged | steptemp | setfan | poweroff | armtimer | canceltimer => exact hs
  · cases he with
    | overflow hcap => exact absurd hs.2 (Nat.not_le_of_lt hcap)
    | silent | acFrame | offFrame | scene => exact hs

/-- The timer is disarmed and no `ARMTIMER` is presented. -/
def StaysDisarmed (s : State) : Prop := s.offDeadline = 0 ∧ ∀ cmd, some cmd ∈ s.arrivals → opField cmd ≠ 5

/-- A word that is no `ARMTIMER` leaves a disarmed timer disarmed and takes no presentation. -/
theorem execute_keeps_disarmed {cmd : Cmd} {s v : State} (h : execute cmd s = .next v) (hop : opField cmd ≠ 5)
    (hs : s.offDeadline = 0) : v.offDeadline = 0 ∧ v.arrivals = s.arrivals := by
  obtain ⟨i, hd, hi⟩ | rfl := execute_eq_next h
  · refine ⟨?_, exec_arrivals hi⟩
    obtain hsame | ⟨hzero, -⟩ | ⟨n, rfl, -⟩ := exec_leavesDeadline hi
    · exact hsame.trans hs
    · exact hzero
    · obtain ⟨-, hcode, -⟩ := decode_eq_ok hd
      exact absurd hcode.symm hop
  · exact ⟨hs, rfl⟩

theorem step_keeps_disarmed {s t : State} (h : step s = .next t) (hs : StaysDisarmed s) : StaysDisarmed t := by
  obtain ⟨hdisarmed, hwords⟩ := hs
  obtain ⟨-, rfl⟩ | ⟨-, hserve⟩ := step_eq_next h
  · rw [pollStep_idle (expired_of_disarmed hdisarmed)]
    exact ⟨by simpa using hdisarmed, by simpa using hwords⟩
  · obtain rfl | ⟨cmd, rest, v, ha, hv, rfl⟩ := serviceStep_eq_next hserve
    · exact ⟨by simpa using hdisarmed, fun cmd hmem => hwords cmd (List.mem_of_mem_tail (by simpa using hmem))⟩
    · rw [ha] at hwords
      obtain ⟨hv0, hrest⟩ := execute_keeps_disarmed hv (hwords cmd List.mem_cons_self) hdisarmed
      exact ⟨by simpa using hv0, fun c hmem => hwords c (List.mem_cons_of_mem _ (by simpa [hrest] using hmem))⟩

/-- Settles O54: the expired step disarms, and a disarmed timer to which no `ARMTIMER` comes stays disarmed. -/
theorem forcedOffHappensExactlyOnce : Obligations.ForcedOffHappensExactlyOnce := by
  intro s t hf hp hcap he hwords h
  cases (step_poll_expired hf hp he hcap).symm.trans h
  refine ⟨rfl, fun n u hrun => ?_⟩
  obtain ⟨⟨huf, -⟩, hdisarmed, -⟩ : Unfaulted u ∧ StaysDisarmed u :=
    run_preserves (M := core) (P := fun s => Unfaulted s ∧ StaysDisarmed s)
      (fun hstep ⟨hunf, hdis⟩ => ⟨step_keeps_unfaulted hstep hunf, step_keeps_disarmed hstep hdis⟩) hrun
      ⟨⟨hf, hcap⟩, rfl, hwords⟩
  exact ⟨hdisarmed, fun hup => ⟨_, step_poll_idle huf hup (expired_of_disarmed hdisarmed), rfl⟩⟩

end Sys2Proof.Machine
end

section
namespace Sys2Proof.Machine

/-! ### A command against the deadline (44 R221, R240) -/

theorem execSteptemp_recognised {token : DirectionToken} {delta : Int} (s : State)
    (hd : directionOperand token = some delta) :
    execSteptemp token s =
      .next ((transmitIfOn (s.setTempX2 (steppedTemp s.tempX2 delta))).finish State.respondOk) := by
  rw [execSteptemp, hd]

/-- `t` has sent nothing and has kept power, deadline and latch of `s`. -/
def Quiet (s t : State) : Prop :=
  t.trace = s.trace ∧ t.powerOn = s.powerOn ∧ t.offDeadline = s.offDeadline ∧ t.fault = s.fault

theorem execSteptemp_quiet_of_off {s : State} (token : DirectionToken) (hoff : s.powerOn = false) :
    ∃ t, execSteptemp token s = .next t ∧ Quiet s t := by
  cases hd : directionOperand token with
  | none => exact ⟨s.respondOk, by rw [execSteptemp, hd], rfl, rfl, rfl, rfl⟩
  | some delta =>
    rw [execSteptemp_recognised s hd, transmitIfOn_off (s.setTempX2 (steppedTemp s.tempX2 delta)) hoff]
    exact ⟨_, rfl, rfl, rfl, rfl, rfl⟩

theorem execSetfan_quiet_of_off {s : State} (token : FanToken) (hoff : s.powerOn = false) :
    ∃ t, execSetfan token s = .next t ∧ Quiet s t := by
  cases hfan : fanOperand s.cfg token with
  | none => exact ⟨s.respondOk, by rw [execSetfan, hfan], rfl, rfl, rfl, rfl⟩
  | some f =>
    rw [execSetfan_recognised s hfan, transmitIfOn_off (s.setFanHex f) hoff]
    exact ⟨_, rfl, rfl, rfl, rfl, rfl⟩

/-- While off the words of `STEPTEMP` and `SETFAN` send nothing (R121, R122). -/
theorem exec_decoded_quiet_of_off {cmd : Cmd} {s : State} (hop : opField cmd = 2 ∨ opField cmd = 3)
    (hoff : s.powerOn = false) : ∃ i t, decode cmd = .ok i ∧ exec i s = .next t ∧ Quiet s t := by
  obtain hop | hop := hop
  · obtain ⟨t, ht, hq⟩ := execSteptemp_quiet_of_off (decodeDirection (argField cmd)) hoff
    exact ⟨_, t, decode_steptemp cmd hop, ht, hq⟩
  · obtain ⟨t, ht, hq⟩ := execSetfan_quiet_of_off (decodeFan (argField cmd)) hoff
    exact ⟨_, t, decode_setfan cmd hop, ht, hq⟩

theorem run_two {s t : State} (h : step s = .next t) : Host.Core.run core 2 s = Host.Core.run core 1 t :=
  run_succ_of_step (M := core) h 1

theorem run_one {s t : State} (h : step s = .next t) : Host.Core.run core 1 s = .next t :=
  run_succ_of_step (M := core) h 0

/-- Settles O55: the step of each phase, and the step after it. -/
theorem phaseDecidesExpiryAgainstCommand : Obligations.PhaseDecidesExpiryAgainstCommand := by
  refine ⟨fun s cmd rest hf hp hcap he ha => ?_, fun s cmd rest hf hp ha => ?_⟩
  · have hoff := step_poll_expired hf hp he hcap
    refine ⟨_, hoff, rfl, rfl, rfl, rfl, rfl, rfl, step_serviced (s := tickedOff s) hf rfl ha, fun hop => ?_⟩
    obtain ⟨i, v, hd, hv, htrace, hpower, hdeadline, hfault⟩ :=
      exec_decoded_quiet_of_off (s := (tickedOff s).setArrivals rest) hop rfl
    have hserved := step_serviced_of_exec (s := tickedOff s) hf rfl ha hd hv (hfault.trans hf)
    exact ⟨_, (run_two hoff).trans (run_one hserved), htrace, hpower, hdeadline⟩
  · refine ⟨step_serviced hf hp ha, fun hop => ?_⟩
    have hcancel := step_serviced_of_exec hf hp ha (decode_canceltimer cmd hop) rfl hf
    exact ⟨_, (run_two hcancel).trans (run_one (step_poll_idle hf rfl (expired_of_disarmed rfl))), rfl, rfl⟩

/-- An operand of 0 or 1 is a direction (R83). -/
theorem directionOperand_decodeDirection {arg : Arg} (h : arg.toNat ≤ 1) :
    ∃ delta, directionOperand (decodeDirection arg) = some delta := by
  obtain ⟨k, rfl⟩ := exists_fin_eq_ofNat arg 2 (by omega)
  fin_cases k
  · exact ⟨-1, rfl⟩
  · exact ⟨1, rfl⟩

/-- Settles O59: `ARMTIMER` overwrites the passed deadline; `STEPTEMP` leaves it, so the next `TICK` forces off. -/
theorem commandServicedBeforeExpiry : Obligations.CommandServicedBeforeExpiry := by
  intro s cmd rest hf hp ha _
  refine ⟨fun hop hpos => ?_, fun hop harg hon hcap => ?_⟩
  · have hexec := execArmtimer_of_pos (s.setArrivals rest) hpos
    exact ⟨_, step_serviced_of_exec hf hp ha (decode_armtimer cmd hop) hexec hf, rfl, rfl, rfl⟩
  · obtain ⟨delta, hdelta⟩ := directionOperand_decodeDirection harg
    have hexec := execSteptemp_recognised (s.setArrivals rest) hdelta
    rw [transmitIfOn_on ((s.setArrivals rest).setTempX2 _) hon hcap] at hexec
    exact ⟨_, step_serviced_of_exec hf hp ha (decode_steptemp cmd hop) hexec hf, rfl, hon, rfl,
      fun he => ⟨_, step_poll_expired hf rfl he hcap, rfl, rfl, rfl⟩⟩

end Sys2Proof.Machine
end

section
namespace Sys2Proof.Machine

/-! ### The command errors (60 R230, R231, R233, R236) -/

theorem execute_reserved {cmd : Cmd} (hop : (opField cmd).toNat = 0 ∨ 9 ≤ (opField cmd).toNat) (s : State) :
    execute cmd s = .next (raiseError .unknownCommand s) :=
  execute_error cmd _ s (decode_reserved cmd hop)

theorem execute_armtimer_of_nonpos {cmd : Cmd} (hop : opField cmd = 5) (harg : (argField cmd).toInt ≤ 0) (s : State) :
    execute cmd s = .next (raiseError .invalidTimerDuration s) := by
  rw [execute_ok _ _ s (decode_armtimer cmd hop)]
  exact execArmtimer_of_nonpos s harg

theorem execute_playlight_unknown {cmd : Cmd} (hop : opField cmd = 8) (harg : 2 < (argField cmd).toNat) (s : State) :
    execute cmd s = .next (raiseError .unknownScene s) := by
  rw [execute_ok _ _ s (decode_playlight cmd hop), decodeScene_unrecognised _ harg]
  rfl

/-- The end of a service whose command only answers an error. -/
theorem step_serviced_raising {s : State} {cmd : Cmd} {rest : List (Option Cmd)} {e : ResponseCode}
    (hf : s.fault = false) (hp : s.phase = .service) (ha : s.arrivals = some cmd :: rest)
    (hraise : execute cmd (s.setArrivals rest) = .next (raiseError e (s.setArrivals rest))) :
    step s = .next ((raiseError e (s.setArrivals rest)).setPhase .poll).passTime := by
  rw [step_serviced hf hp ha, hraise, endService, endStep_going .poll (raiseError e (s.setArrivals rest)) hf]

/-- Settles O26: each of the three commands only raises its error. -/
theorem commandErrorsArePrecise : Obligations.CommandErrorsArePrecise := by
  intro s cmd rest e hf hp ha hcases
  have hraise : execute cmd (s.setArrivals rest) = .next (raiseError e (s.setArrivals rest)) := by
    rcases hcases with ⟨rfl, hop⟩ | ⟨rfl, hop, harg⟩ | ⟨rfl, hop, harg⟩
    · exact execute_reserved hop _
    · exact execute_armtimer_of_nonpos hop harg _
    · exact execute_playlight_unknown hop harg _
  rw [step_serviced_raising hf hp ha hraise]
  rfl

/-- Settles O16: the sign test comes first, for the command and for its words. -/
theorem armtimerRejectsNonPositive : Obligations.ArmtimerRejectsNonPositive :=
  ⟨fun s _ hminutes => execArmtimer_of_nonpos s hminutes, fun s _ hop harg => execute_armtimer_of_nonpos hop harg s⟩

/-- Settles O28: the operand stands for no scene, so nothing is played. -/
theorem unknownSceneEmitsNothing : Obligations.UnknownSceneEmitsNothing :=
  fun s _ hop harg => execute_playlight_unknown hop harg s

/-! ### The overflow of the pulse buffer (60 R234) -/

/-- `t` is `s` with the latch set, a transmission having gone no further than the buffers. -/
def LatchedFrom (s t : State) : Prop :=
  ∃ frm pls plsLen, t = { s with frm := frm, pls := pls, plsLen := plsLen, fault := true }

theorem AbandonedFrom.finish_latched {s : State} {r : Run} (h : AbandonedFrom s r) (f : State → State) :
    LatchedFrom s (r.finish f) := by
  obtain ⟨frm, pls, plsLen, rfl, -, -⟩ := h
  exact ⟨frm, pls, plsLen, rfl⟩

theorem transmitIfOn_overflow {s : State} (hon : s.powerOn = true) (hcap : s.cfg.plsCap < 632) :
    AbandonedFrom s (transmitIfOn s) := by
  rw [transmitIfOn, if_pos hon]
  exact transmitAC_overflow s hcap

theorem tick_overflow {s : State} (he : s.expired = true) (hcap : s.cfg.plsCap < 632) : AbandonedFrom s (tick s) := by
  rw [tick, if_pos he]
  exact forcedOff_overflow s hcap

section
variable {s : State} (hcap : s.cfg.plsCap < 632)
include hcap

theorem exec_setmode_overflow {token : ModeToken} {m : Mode} (hm : modeOperand token = some m) :
    ∃ t, exec (.setmode token) s = .next t ∧ LatchedFrom (setmodeWrites m s) t := by
  refine ⟨_, by rw [exec, execSetmode, hm], AbandonedFrom.finish_latched ?_ _⟩
  exact transmitAC_overflow _ (by rwa [setmodeWrites_cfg])

theorem exec_steptemp_overflow {token : DirectionToken} {delta : Int} (hd : directionOperand token = some delta)
    (hon : s.powerOn = true) :
    ∃ t, exec (.steptemp token) s = .next t ∧ LatchedFrom (s.setTempX2 (steppedTemp s.tempX2 delta)) t := by
  refine ⟨_, by rw [exec, execSteptemp_recognised s hd], AbandonedFrom.finish_latched ?_ _⟩
  exact transmitIfOn_overflow hon hcap

theorem exec_setfan_overflow {token : FanToken} {fan : Byte} (hfan : fanOperand s.cfg token = some fan)
    (hon : s.powerOn = true) :
    ∃ t, exec (.setfan token) s = .next t ∧ LatchedFrom (s.setFanHex fan) t := by
  refine ⟨_, by rw [exec, execSetfan_recognised s hfan], AbandonedFrom.finish_latched ?_ _⟩
  exact transmitIfOn_overflow hon hcap

/-- The transmission comes first, so `powerOn` and the deadline stand (40 R123). -/
theorem exec_poweroff_overflow (arg : Arg) : ∃ t, exec (.poweroff arg) s = .next t ∧ LatchedFrom s t :=
  ⟨_, rfl, (forcedOff_overflow s hcap).finish_latched _⟩

/-- An abandoned `TICK` leaves the loop in `POLL` (60 R234); only time passes (log 9). -/
theorem step_poll_overflow (hf : s.fault = false) (hp : s.phase = .poll) (he : s.expired = true) :
    ∃ t, step s = .next t.passTime ∧ LatchedFrom s t := by
  have hlatched := (tick_overflow he hcap).finish_latched id
  refine ⟨_, ?_, hlatched⟩
  obtain ⟨_, _, _, htick⟩ := hlatched
  rw [step_poll s hf hp, pollStep, htick, endStep, if_pos rfl]

end

/-- Settles O56: no transmission gets past its encoding, and the register writes before it stand. -/
theorem overflowLatchesAndHalts : Obligations.OverflowLatchesAndHalts := by
  refine ⟨step_halted, fun s hcap => ⟨fun token m temp htoken => ?_, fun token temp hon hstep => ?_,
    fun token fan hon hmem => ?_, fun arg => ?_, fun hf hp he => ?_⟩⟩
  · obtain ⟨hm, rfl⟩ : modeOperand token = some m ∧ temp = defaultTemp m := by
      rcases htoken with h | h <;> cases h <;> exact ⟨rfl, rfl⟩
    obtain ⟨_, hexec, _, _, _, rfl⟩ := exec_setmode_overflow hcap hm
    rw [setmodeWrites_eq] at hexec
    exact ⟨_, hexec, rfl, rfl, rfl, rfl, rfl, rfl, rfl, rfl⟩
  · obtain ⟨delta, hd, rfl⟩ : ∃ delta, directionOperand token = some delta ∧ temp = steppedTemp s.tempX2 delta := by
      rcases hstep with ⟨rfl, rfl⟩ | ⟨rfl, rfl⟩
      · exact ⟨1, rfl, (steppedTemp_one _).symm⟩
      · exact ⟨-1, rfl, (steppedTemp_neg_one _).symm⟩
    obtain ⟨_, hexec, _, _, _, rfl⟩ := exec_steptemp_overflow hcap hd hon
    exact ⟨_, hexec, rfl, rfl, rfl, rfl⟩
  · have hfan : fanOperand s.cfg token = some fan := by cases token <;> simp_all [fanOperand]
    obtain ⟨_, hexec, _, _, _, rfl⟩ := exec_setfan_overflow hcap hfan hon
    exact ⟨_, hexec, rfl, rfl, rfl, rfl⟩
  · obtain ⟨_, hexec, _, _, _, rfl⟩ := exec_poweroff_overflow hcap arg
    exact ⟨_, hexec, rfl, rfl, rfl, rfl, rfl⟩
  · obtain ⟨_, hstep, _, _, _, rfl⟩ := step_poll_overflow hcap hf hp he
    exact ⟨_, hstep, rfl, rfl, rfl, rfl, rfl, hp⟩

end Sys2Proof.Machine
end

section
namespace Sys2Proof.Machine

/-! ### The range of the timer (70 R271, R272) -/

section
variable {s t u : State} {minutes e : Nat}

theorem exec_armtimer_of_pos (s : State) (hpos : 0 < minutes) :
    exec (.armtimer minutes) s = .next (s.setOffDeadline (deadlineAfter s.clock minutes)).respondOk :=
  execArmtimer_of_pos s (Int.natCast_pos.mpr hpos)

theorem offDeadline_of_exec_armtimer (hpos : 0 < minutes) (h : exec (.armtimer minutes) s = .next t) :
    t.offDeadline = deadlineAfter s.clock minutes := by
  rw [exec_armtimer_of_pos s hpos] at h
  cases h
  rfl

/-- The clock value at arming cancels: only the elapsed and the asked time remain. -/
theorem elapsed_sub_deadlineAfter (now : Time) (minutes e : Nat) :
    now + BitVec.ofNat 32 e - deadlineAfter now minutes = BitVec.ofInt 32 (e - minutes * 60000) := by
  rw [deadlineAfter, msPerMinute, add_sub_add_left_eq_sub, ← BitVec.ofInt_natCast]
  simp only [sub_eq_add_neg, BitVec.ofInt_add, BitVec.ofInt_neg]

/-- The one test of the timer: the milliseconds since the deadline, brought into the signed 32-bit range (R132). -/
theorem expired_after_arming_iff (hpos : 0 < minutes) (hexec : exec (.armtimer minutes) s = .next t)
    (harmed : t.offDeadline ≠ 0) (hdeadline : u.offDeadline = t.offDeadline)
    (hclock : u.clock = s.clock + BitVec.ofNat 32 e) :
    u.expired = true ↔ 0 ≤ ((e : Int) - minutes * 60000).bmod (2 ^ 32) := by
  rw [expired_iff, and_iff_right (hdeadline ▸ harmed), hclock, hdeadline, offDeadline_of_exec_armtimer hpos hexec,
    elapsed_sub_deadlineAfter, BitVec.toInt_ofInt]

end

/-- Settles O19: the milliseconds since the deadline lie within `2^31` of 0, so they keep their sign. -/
theorem timerIsDelayWithinRange : Obligations.TimerIsDelayWithinRange := by
  intro s t minutes e u hlo hhi hexec harmed he hdeadline hclock
  have hsame : ((e : Int) - minutes * 60000).bmod (2 ^ 32) = e - minutes * 60000 :=
    Int.bmod_eq_of_le (by omega) (by omega)
  rw [expired_after_arming_iff hlo hexec harmed hdeadline hclock, hsame]
  omega

/-- Settles O20: the milliseconds since the deadline lie more than `2^31` below 0, so they wrap to a positive
distance. -/
theorem timerBeyondRangeFiresAtOnce : Obligations.TimerBeyondRangeFiresAtOnce := by
  intro s t minutes e u hlo hhi hexec harmed he hdeadline hclock
  have hwrap : ((e : Int) - minutes * 60000).bmod (2 ^ 32) = e - minutes * 60000 + 2 ^ 32 := by
    rw [← Int.add_bmod_right]
    exact Int.bmod_eq_of_le (by omega) (by omega)
  rw [expired_after_arming_iff (by omega) hexec harmed hdeadline hclock, hwrap]
  omega

/-- Settles O21: `ARMTIMER` writes the sum as it comes, and a sum of 0 reads as disarmed. -/
theorem zeroDeadlineLeavesDisarmed : Obligations.ZeroDeadlineLeavesDisarmed := by
  intro s minutes hpos hsum
  have hzero : deadlineAfter s.clock minutes = 0 := (deadlineAfter_eq_zero_iff _ _).mpr (by omega)
  refine ⟨_, exec_armtimer_of_pos s hpos, ?_, rfl⟩
  rw [hzero]
  rfl

end Sys2Proof.Machine
end
